-- ==== Sys2Proof/Word.lean ====
section
/-! DEFINITION. The bit-vector types of the block. Every value is unsigned (R7). -/

namespace Sys2Proof

/-- A bus data word, a chaining or message register, a C-format command word (R6 `WORD_W`, R65). -/
abbrev Word := BitVec 32

/-- The width of `t`, `product`, `x` and the NibbleTable entries (R6 `TABLE_W`). -/
abbrev Half := BitVec 16

/-- A byte (R7). -/
abbrev Byte := BitVec 8

/-- A nibble: a 4-bit half of a byte (R9). -/
abbrev Nibble := BitVec 4

/-- A bus byte address (R6 `ADDR_W`, R40). -/
abbrev Addr := BitVec 8

/-- A format T word: one bus transaction (R60, R61). -/
abbrev TWord := BitVec 41

/-- A format S word: one response (R60, R63). -/
abbrev SWord := BitVec 37

end Sys2Proof
end

