-- ==== Sys2Proof/Syntax.lean ====
section
/-! DEFINITION. The instructions: one constructor per row of spec/opcode_table.json. -/

namespace Sys2Proof

/-- The ten rows of the opcode table. `rd` and `wr` are the two bus transactions (format T, R61,
R62); the other eight are the commands (format C, R66), whose operands are all implicit (R65). -/
inductive Instr where
  /-- `RD addr`: host bus read (R62, R80). -/
  | rd (addr : Addr)
  /-- `WR addr, wdata`: host bus write (R62, R80). -/
  | wr (addr : Addr) (wdata : Word)
  /-- `NOP`, C word `0x00000000` (R160). -/
  | nop
  /-- `MDINIT`, C word `0x00000001` (R101). -/
  | mdinit
  /-- `MDCOMP`, C word `0x00000002` (R106). -/
  | mdcomp
  /-- `DGLATCH`, C word `0x00000003` (R122). -/
  | dglatch
  /-- `DGCLR`, C word `0x00000004` (R121). -/
  | dgclr
  /-- `FPENC`, C word `0x00000005` (R131). -/
  | fpenc
  /-- `CLRF`, C word `0x00000006` (R162). -/
  | clrf
  /-- `SRESET`, C word `0x00000007` (R163). -/
  | sreset
deriving DecidableEq, Repr

end Sys2Proof
end

