-- ==== Sys2Proof/Formats.lean ====
section
/-! DEFINITION. The names around the instructions: opcodes, code words, registers of the address map,
assembler statements, and the reasons a decoder rejects. Types only; what they mean is in Decode.lean
and Machine/. -/

namespace Sys2Proof

/-- The eight opcodes of the opcode map (R66). -/
inductive Opcode where
  | nop | mdinit | mdcomp | dglatch | dgclr | fpenc | clrf | sreset
deriving DecidableEq, Repr

/-- The word of an instruction in its format (R60): a T word for a bus transaction, a C word for a
command. -/
inductive CodeWord where
  | t (w : TWord)
  | c (w : Word)
deriving DecidableEq, Repr

/-- Why a decoder rejects. Every T word decodes (R62), so only these two remain. -/
inductive DecodeError where
  /-- The C word is none of the eight of R66 (R68). -/
  | illegalCommand (w : Word)
  /-- A number that does not fit its format: bits above bit 40 of a T word or above bit 31 of a C
  word (R60; log entry 7). -/
  | tooWide (nbits w : Nat)
deriving DecidableEq, Repr

/-- The registers of the address map, named as R41 names them. -/
inductive Reg where
  | cmd | status | dglen | dgpush
  | h (j : Fin 4)
  | dgw (j : Fin 4)
  | rnib | pk | fp0 | fp1
  | m (j : Fin 16)
  | id
deriving DecidableEq, Repr

/-- Statements of the assembler: R71 and the pseudo-instructions of R72. Operand counts and the
range of `PUSH` are checked in WellFormed.lean. -/
inductive Stmt where
  /-- `RD addr` (and `RD addr -> name`, the same T word). -/
  | rd (addr : Addr)
  /-- `WR addr, data`. -/
  | wr (addr : Addr) (data : Word)
  /-- One of the eight command mnemonics. -/
  | command (op : Opcode)
  /-- `PUSH b`, `b` in 0..255. -/
  | push (b : Nat)
  /-- `LDBLK w0, ..., w15`. -/
  | ldblk (ws : List Word)
  /-- `LDBLKB b0, ..., b63`. -/
  | ldblkb (bs : List Byte)
  /-- `LDH a, b, c, d`. -/
  | ldh (a b c d : Word)
  /-- `PUSHDG b0, ..., b15`. -/
  | pushdg (bs : List Byte)
deriving DecidableEq, Repr

end Sys2Proof
end

