-- ==== Sys2Proof/WellFormed.lean ====
section
/-! DEFINITION. Well-formedness of instructions, of numbers offered to the decoder and of assembler
statements, each a Bool. -/

namespace Sys2Proof

/-- Well-formed instructions. The types `Addr` and `Word` already hold exactly the operands a T word
can carry, every one of the 2^41 T words decodes (R62) and a command has no operand (R65), so there
is no ill-formed instruction; an address that is not mapped is answered by the machine (R80), it is
not a matter of form. -/
def Instr.wf : Instr → Bool
  | .rd _ => true
  | .wr _ _ => true
  | .nop => true
  | .mdinit => true
  | .mdcomp => true
  | .dglatch => true
  | .dgclr => true
  | .fpenc => true
  | .clrf => true
  | .sreset => true

/-- The number `w`, offered as an instruction of `nbits` bits, fits its format: format C up to 32
bits, format T above (R60; log entry 7). -/
def bitsFit (nbits w : Nat) : Bool :=
  if nbits ≤ 32 then w < 2 ^ 32 else w < 2 ^ 41

/-- Well-formed assembler statements: the operand counts and the range of R72. -/
def Stmt.wf : Stmt → Bool
  | .rd _ => true
  | .wr _ _ => true
  | .command _ => true
  | .push b => b < 256
  | .ldblk ws => ws.length == 16
  | .ldblkb bs => bs.length == 64
  | .ldh _ _ _ _ => true
  | .pushdg bs => bs.length == 16

end Sys2Proof
end

