-- ==== Sys2Proof/Decode.lean ====
section
/-! DEFINITION. Decoding of T words and C words, rejecting by name, and the encoder, both from the
tables of spec/30_encoding.md. -/

namespace Sys2Proof

/-- Field `we` of a T word, bit 40 (R61). -/
def tWe (w : TWord) : Bool := w.getLsbD 40

/-- Field `addr` of a T word, bits 39:32 (R61). -/
def tAddr (w : TWord) : Addr := w.extractLsb' 32 8

/-- Field `wdata` of a T word, bits 31:0 (R61). -/
def tData (w : TWord) : Word := w.extractLsb' 0 32

/-- The T word with the given fields (R61). -/
def mkT (we : Bool) (addr : Addr) (wdata : Word) : TWord :=
  BitVec.ofBool we ++ addr ++ wdata

/-- Decoding a T word: `RD` when `we = 0`, with `wdata` ignored, `WR` when `we = 1` (R62). -/
def decodeT (w : TWord) : Instr :=
  if tWe w then .wr (tAddr w) (tData w) else .rd (tAddr w)

/-- The C word of an opcode (R66). -/
def Opcode.word : Opcode → Word
  | .nop => 0x00000000#32
  | .mdinit => 0x00000001#32
  | .mdcomp => 0x00000002#32
  | .dglatch => 0x00000003#32
  | .dgclr => 0x00000004#32
  | .fpenc => 0x00000005#32
  | .clrf => 0x00000006#32
  | .sreset => 0x00000007#32

/-- The command a C word selects: exactly when all 32 bits equal the value of R66; any other word is
illegal (R68). -/
def Opcode.ofWord (w : Word) : Option Opcode :=
  if w = 0x00000000#32 then some .nop
  else if w = 0x00000001#32 then some .mdinit
  else if w = 0x00000002#32 then some .mdcomp
  else if w = 0x00000003#32 then some .dglatch
  else if w = 0x00000004#32 then some .dgclr
  else if w = 0x00000005#32 then some .fpenc
  else if w = 0x00000006#32 then some .clrf
  else if w = 0x00000007#32 then some .sreset
  else none

/-- The opcode table's instruction for an opcode (R66). -/
def Opcode.instr : Opcode → Instr
  | .nop => .nop
  | .mdinit => .mdinit
  | .mdcomp => .mdcomp
  | .dglatch => .dglatch
  | .dgclr => .dgclr
  | .fpenc => .fpenc
  | .clrf => .clrf
  | .sreset => .sreset

/-- Decoding a code word of either format (R62, R66, R68). -/
def decode : CodeWord → Except DecodeError Instr
  | .t w => .ok (decodeT w)
  | .c w =>
    match Opcode.ofWord w with
    | some op => .ok op.instr
    | none => .error (.illegalCommand w)

/-- The code word in which a number of `nbits` bits is read: C up to 32 bits, T above (R60; log
entry 7). -/
def codeWordOf (nbits w : Nat) : Except DecodeError CodeWord :=
  if bitsFit nbits w then
    if nbits ≤ 32 then .ok (.c (BitVec.ofNat 32 w)) else .ok (.t (BitVec.ofNat 41 w))
  else .error (.tooWide nbits w)

/-- Decoding a number of `nbits` bits, total on any number. -/
def decodeBits (nbits w : Nat) : Except DecodeError Instr :=
  match codeWordOf nbits w with
  | .ok cw => decode cw
  | .error e => .error e

/-- The instruction the decoder reads from a word of the opcode table; none where it rejects. -/
def decodeTableWord (nbits w : Nat) : Option Instr :=
  match decodeBits nbits w with
  | .ok i => some i
  | .error _ => none

/-- The transaction that carries a code word to the block: a T word is one; a C word is the data of a
write to `CMD` at address `0x00` (R60, R66). -/
def CodeWord.transaction : CodeWord → TWord
  | .t w => w
  | .c w => mkT true 0x00#8 w

/-- The encoder (R61, R66). For a read the assembler emits `wdata = 0` (R61). -/
def encode : Instr → CodeWord
  | .rd addr => .t (mkT false addr 0#32)
  | .wr addr wdata => .t (mkT true addr wdata)
  | .nop => .c Opcode.nop.word
  | .mdinit => .c Opcode.mdinit.word
  | .mdcomp => .c Opcode.mdcomp.word
  | .dglatch => .c Opcode.dglatch.word
  | .dgclr => .c Opcode.dgclr.word
  | .fpenc => .c Opcode.fpenc.word
  | .clrf => .c Opcode.clrf.word
  | .sreset => .c Opcode.sreset.word

end Sys2Proof
end

