-- ==== Sys2Proof/Config.lean ====
section
/-! DEFINITION. What the spec leaves to the implementation: the one open parameter `PACK_TAIL`. -/

namespace Sys2Proof

/-- The two readings of what becomes of the last pending nibble `r[0]` (R6, R143). -/
inductive PackTail where
  /-- The nibble is discarded, `P[0]` stays zero (the spec's default, R142). -/
  | discard
  /-- The nibble is written to the remaining slot, `P[0] = r[0]` (R143). -/
  | flush
deriving DecidableEq, Repr, Inhabited

/-- `PACK_TAIL` of R6, R25, R143: a parameter of the step relation, not state. It has no body, so a
claim about the machine holds for both settings. DESIGN CHOICE, log entry 3; safe. -/
opaque Config.packTail : PackTail

end Sys2Proof
end

