-- ==== Sys2Proof/Machine/Md5Tables.lean ====
section
/-! DEFINITION. The constants of MD5 (spec/41_md5.md R102 to R105). They are constant data, not state
(R23). All are general knowledge of the spec's writer (spec/93_implementation_defined.md G2 to G5; log
entry 13). -/

namespace Sys2Proof.Machine

/-- The initial value `IV[0..3]` (R102). -/
def iv : Vector Word 4 :=
  #v[0x67452301#32, 0xEFCDAB89#32, 0x98BADCFE#32, 0x10325476#32]

/-- The additive constants `K[0..63]`, row by row as R103 lists them. -/
def kTable : Vector Word 64 :=
  #v[0xd76aa478#32, 0xe8c7b756#32, 0x242070db#32, 0xc1bdceee#32,
     0xf57c0faf#32, 0x4787c62a#32, 0xa8304613#32, 0xfd469501#32,
     0x698098d8#32, 0x8b44f7af#32, 0xffff5bb1#32, 0x895cd7be#32,
     0x6b901122#32, 0xfd987193#32, 0xa679438e#32, 0x49b40821#32,
     0xf61e2562#32, 0xc040b340#32, 0x265e5a51#32, 0xe9b6c7aa#32,
     0xd62f105d#32, 0x02441453#32, 0xd8a1e681#32, 0xe7d3fbc8#32,
     0x21e1cde6#32, 0xc33707d6#32, 0xf4d50d87#32, 0x455a14ed#32,
     0xa9e3e905#32, 0xfcefa3f8#32, 0x676f02d9#32, 0x8d2a4c8a#32,
     0xfffa3942#32, 0x8771f681#32, 0x6d9d6122#32, 0xfde5380c#32,
     0xa4beea44#32, 0x4bdecfa9#32, 0xf6bb4b60#32, 0xbebfbc70#32,
     0x289b7ec6#32, 0xeaa127fa#32, 0xd4ef3085#32, 0x04881d05#32,
     0xd9d4d039#32, 0xe6db99e5#32, 0x1fa27cf8#32, 0xc4ac5665#32,
     0xf4292244#32, 0x432aff97#32, 0xab9423a7#32, 0xfc93a039#32,
     0x655b59c3#32, 0x8f0ccc92#32, 0xffeff47d#32, 0x85845dd1#32,
     0x6fa87e4f#32, 0xfe2ce6e0#32, 0xa3014314#32, 0x4e0811a1#32,
     0xf7537e82#32, 0xbd3af235#32, 0x2ad7d2bb#32, 0xeb86d391#32]

/-- The four patterns of rotation amounts, one per group of 16 steps (R104). -/
def rotationPatterns : Vector (Vector Nat 4) 4 :=
  #v[#v[7, 12, 17, 22], #v[5, 9, 14, 20], #v[4, 11, 16, 23], #v[6, 10, 15, 21]]

/-- `S[i]`: the group's pattern at `i mod 4` (R104). -/
def rotationAmount (i : Fin 64) : Nat :=
  (rotationPatterns[i.val / 16])[i.val % 4]

/-- `g(i)`, the message word step `i` reads (R105). -/
def messageWord (i : Fin 64) : Fin 16 :=
  if i.val < 16 then Fin.ofNat 16 i.val
  else if i.val < 32 then Fin.ofNat 16 (5 * i.val + 1)
  else if i.val < 48 then Fin.ofNat 16 (3 * i.val + 5)
  else Fin.ofNat 16 (7 * i.val)

/-- `F(i, b, c, d)`, the step function (R105). -/
def roundFunction (i : Fin 64) (b c d : Word) : Word :=
  if i.val < 16 then (b &&& c) ||| (~~~b &&& d)
  else if i.val < 32 then (d &&& b) ||| (~~~d &&& c)
  else if i.val < 48 then b ^^^ c ^^^ d
  else c ^^^ (b ||| ~~~d)

/-- `rotl32(v, s)` for `0 < s < 32` (R7). -/
def rotl32 (v : Word) (s : Nat) : Word :=
  (v <<< s) ||| (v >>> (32 - s))

end Sys2Proof.Machine
end

