-- ==== Sys2Proof/Machine/State.lean ====
section
/-! DEFINITION. The state of the machine, what a transaction answers, and the reset state. -/

namespace Sys2Proof.Machine

/-- The three latched faults (R64 codes 1 to 3, R190, R191). Taking one is a next state (R200). -/
inductive FaultCause where
  /-- FPENC with `DLEN` other than 16 (R132, R192). -/
  | invalidDigestLength
  /-- FPENC with an index past the end of the digest (R137, R193). -/
  | indexOutOfRange
  /-- A write to `CMD` of a word that is no command (R68, R194). -/
  | illegalCommand
deriving DecidableEq, Repr

/-- Why a transaction answers ERROR: a fault, or one of the two refusals, which change no state
(R190, R191). -/
inductive ErrorCode where
  /-- Codes 1 to 3. -/
  | fault (cause : FaultCause)
  /-- Code 4, AccessError (R195). -/
  | accessError
  /-- Code 5, FaultLocked (R203). -/
  | faultLocked
deriving DecidableEq, Repr

/-- The response to one transaction (R63): `OKAY(v)` or `ERROR(code)`. -/
inductive Response where
  | okay (rdata : Word)
  | error (code : ErrorCode)
deriving DecidableEq, Repr

/-- One thing the host presents to the block: a bus transaction, as its T word (R60, R61), or the
hardware reset input, taken between transactions (R220, R221). -/
inductive Input where
  | transaction (w : TWord)
  | hardwareReset
deriving DecidableEq, Repr

/-- The whole architectural state of the block: exactly the components of R10. -/
structure Block where
  /-- `H[0..3]`, the chaining value A, B, C, D (R11). -/
  h : Vector Word 4
  /-- `M[0..15]`, the message block (R12). -/
  m : Vector Word 16
  /-- `DG[0..15]`, the digest buffer (R13). -/
  dg : Vector Byte 16
  /-- `DLEN`, the bytes offered to the buffer since it was cleared, saturating at 255 (R14). -/
  dlen : Byte
  /-- `RNIB`, the five result nibbles (R15). -/
  rnib : BitVec 20
  /-- `PK`, the packed buffer (R16). -/
  pk : BitVec 24
  /-- `FPC[0..4]`, the Fingerprint characters (R17). -/
  fpc : Vector Byte 5
  /-- `FAULT`, a fault is latched (R18). -/
  fault : Bool
  /-- `CAUSE`, the code of the latched fault (R18). -/
  cause : BitVec 4
  /-- `INFO`, the detail of the latched fault (R18). -/
  info : Byte
  /-- `FPVALID`, the results belong to the present content of `DG` (R20). -/
  fpvalid : Bool
deriving DecidableEq, Repr

/-- The state of the machine: the block, and the host port. The port's two fields are the MODEL's own
(R25 makes the transaction sequence a parameter of the step relation; log entry 1). -/
structure State where
  /-- The architectural state (R10). -/
  blk : Block
  /-- What the host has issued and the block has not yet taken, oldest first (R50). -/
  pending : List Input
  /-- The responses given so far, newest first (R60). -/
  responses : List Response
deriving DecidableEq, Repr

/-- Faults of the MODEL, outcomes in which the machine stops: there are none. The step is total (R80):
the block's own faults (R200) are next states. Nobody raises one; safe (log entry 9). -/
inductive Fault where
deriving DecidableEq, Repr

/-- Refusals of the MODEL. -/
inductive Refusal where
  /-- An instruction of the opcode table without a meaning, raised by its arm of `exec` only. No arm
  raises it: every row has its meaning. Safe. -/
  | notModelled (mnemonic : String)
deriving DecidableEq, Repr

/-- Every component of R10 at its reset value (R26). -/
def Block.reset : Block where
  h := iv
  m := Vector.replicate 16 0#32
  dg := Vector.replicate 16 0#8
  dlen := 0#8
  rnib := 0#20
  pk := 0#24
  fpc := Vector.replicate 5 0#8
  fault := false
  cause := 0#4
  info := 0#8
  fpvalid := false

/-- The machine right after reset (R26, R220). Nothing is pending: the block waits for the first
transaction. DESIGN CHOICE: the two port fields start empty, log entry 14. -/
def State.reset : State where
  blk := Block.reset
  pending := []
  responses := []

end Sys2Proof.Machine
end

