-- ==== Sys2Proof/Machine/Ops.lean ====
section
/-! DEFINITION. The shared operations: byte order, responses and their S words, taking a fault and
returning from one, the lockout, completing a transaction, taking the next input. -/

namespace Sys2Proof.Machine

/-- Byte `k` of a word, `w[8k+7:8k]`: byte sequences lie in words low byte first (R43 (a), (b)). -/
def wordByte (w : Word) (k : Nat) : Byte := w.extractLsb' (8 * k) 8

/-- The word whose bytes 0 to 3 are the given ones, `b3 ++ b2 ++ b1 ++ b0` (R43 (a), R88). -/
def wordOfBytes (b0 b1 b2 b3 : Byte) : Word := b3 ++ b2 ++ b1 ++ b0

/-- What one transaction makes of the block: its next state and its response (R46). -/
abbrev Answer := Block × Response

/-- The code of a fault, in the response and in `CAUSE` (R64, R191). -/
def FaultCause.code : FaultCause → BitVec 4
  | .invalidDigestLength => 1#4
  | .indexOutOfRange => 2#4
  | .illegalCommand => 3#4

/-- The code of an error response (R64). -/
def ErrorCode.code : ErrorCode → BitVec 4
  | .fault c => c.code
  | .accessError => 4#4
  | .faultLocked => 5#4

/-- The error a response code names (R64); 0 and 6 to 15 name none. -/
def ErrorCode.ofCode (c : BitVec 4) : Option ErrorCode :=
  if c = 1#4 then some (.fault .invalidDigestLength)
  else if c = 2#4 then some (.fault .indexOutOfRange)
  else if c = 3#4 then some (.fault .illegalCommand)
  else if c = 4#4 then some .accessError
  else if c = 5#4 then some .faultLocked
  else none

/-- The S word of a response: `err`, `code`, `rdata` (R63). -/
def Response.sWord : Response → SWord
  | .okay v => 0#1 ++ 0#4 ++ v
  | .error e => 1#1 ++ e.code ++ 0#32

/-- Field `err` of an S word, bit 36 (R63). -/
def sErr (w : SWord) : Bool := w.getLsbD 36

/-- Field `code` of an S word, bits 35:32 (R63). -/
def sCode (w : SWord) : BitVec 4 := w.extractLsb' 32 4

/-- Field `rdata` of an S word, bits 31:0 (R63). -/
def sData (w : SWord) : Word := w.extractLsb' 0 32

/-- The response an S word stands for, if it is one the block can return (R63, R64). -/
def Response.ofSWord (w : SWord) : Option Response :=
  if sErr w then
    if sData w = 0#32 then (ErrorCode.ofCode (sCode w)).map Response.error else none
  else if sCode w = 0#4 then some (.okay (sData w)) else none

/-- A write or command that completed: `respond OKAY(0)` (R63). -/
def Block.done (b : Block) : Answer := (b, .okay 0#32)

/-- A refused transaction: `respond ERROR(4)`, no state changes (R190, R195). -/
def Block.accessError (b : Block) : Answer := (b, .error .accessError)

/-- TAKING A FAULT (R200): `FAULT`, `CAUSE`, `INFO` are written, the response is `ERROR(c)`, nothing
else changes. -/
def Block.raise (b : Block) (c : FaultCause) (info : Byte) : Answer :=
  ({ b with fault := true, cause := c.code, info := info }, .error (.fault c))

/-- RETURN FROM A FAULT (R162, R204): the three fault fields are cleared and nothing else changes. -/
def Block.clearFault (b : Block) : Block :=
  { b with fault := false, cause := 0#4, info := 0#8 }

/-- LOCKOUT (R203): while `FAULT = 1` a command other than CLRF and SRESET is refused with
FaultLocked and changes nothing. -/
def Block.unlessLocked (b : Block) (command : Block → Answer) : Answer :=
  if b.fault then (b, .error .faultLocked) else command b

/-- Completes a transaction: the block's next state stands and the response is given before the next
transaction is taken (R46, R50). -/
def State.complete (s : State) (a : Answer) : State :=
  { blk := a.1, pending := s.pending, responses := a.2 :: s.responses }

/-- The hardware reset input: the effect of SRESET and no response (R220, R221; log entry 5). -/
def State.hardwareReset (s : State) : State :=
  { s with blk := Block.reset }

end Sys2Proof.Machine
end

