-- ==== Sys2Proof/Machine/Flags.lean ====
section
/-! DEFINITION. The STATUS word (R18, R87). No operation of the block sets an arithmetic flag (R107,
R149). -/

namespace Sys2Proof.Machine

/-- `STATUS.DGFULL`: 1 exactly when `DLEN = 16`; not stored (R18). -/
def Block.dgFull (b : Block) : Bool := b.dlen = 16#8

/-- A flag as a word, 1 or 0. -/
def flagWord (f : Bool) : Word := if f then 1#32 else 0#32

/-- The value `RD STATUS` returns, as R87 composes it. Reserved bits read as 0 (R69). -/
def Block.status (b : Block) : Word :=
  (b.info.setWidth 32 <<< 16) ||| (b.cause.setWidth 32 <<< 8) |||
    (flagWord b.dgFull <<< 2) ||| (flagWord b.fpvalid <<< 1) ||| flagWord b.fault

end Sys2Proof.Machine
end

