-- ==== Sys2Proof/Machine/Operands.lean ====
section
/-! DEFINITION. The operand forms: the address of a transaction and the register it names (R41, R80 to
R83), the value of every readable register (R85 to R90), the `DGPUSH` byte (R67, R124), the command
word (R65, R68). -/

namespace Sys2Proof.Machine

/-- The value of `ID` (R2, R21). -/
def idValue : Word := 0x4D443501#32

/-- The address of a register (R41). -/
def address : Reg → Addr
  | .cmd => 0x00#8
  | .status => 0x04#8
  | .dglen => 0x08#8
  | .dgpush => 0x0C#8
  | .h j => 0x10#8 + 4#8 * BitVec.ofNat 8 j.val
  | .dgw j => 0x20#8 + 4#8 * BitVec.ofNat 8 j.val
  | .rnib => 0x30#8
  | .pk => 0x34#8
  | .fp0 => 0x38#8
  | .fp1 => 0x3C#8
  | .m j => 0x40#8 + 4#8 * BitVec.ofNat 8 j.val
  | .id => 0x80#8

/-- The register of word slot `n`, that is of address `4n` (R41); none past `ID`. -/
def regOfSlot (n : Nat) : Option Reg :=
  if n = 0 then some .cmd
  else if n = 1 then some .status
  else if n = 2 then some .dglen
  else if n = 3 then some .dgpush
  else if n < 8 then some (.h (Fin.ofNat 4 (n - 4)))
  else if n < 12 then some (.dgw (Fin.ofNat 4 (n - 8)))
  else if n = 12 then some .rnib
  else if n = 13 then some .pk
  else if n = 14 then some .fp0
  else if n = 15 then some .fp1
  else if n < 32 then some (.m (Fin.ofNat 16 (n - 16)))
  else if n = 32 then some .id
  else none

/-- The register an address names: none when it is misaligned (R81) or unmapped (R82). -/
def regAt (addr : Addr) : Option Reg :=
  if addr.extractLsb' 0 2 ≠ 0#2 then none
  else if addr.toNat > 0x80 then none
  else regOfSlot (addr.toNat / 4)

/-- Word `j` of the digest buffer, `DG[4j+3] ++ DG[4j+2] ++ DG[4j+1] ++ DG[4j]` (R88). -/
def Block.digestWord (b : Block) (j : Fin 4) : Word :=
  wordOfBytes b.dg[4 * j.val] b.dg[4 * j.val + 1] b.dg[4 * j.val + 2] b.dg[4 * j.val + 3]

/-- The word a read of a register returns; none for the two write-only registers (R41, R83). -/
def Block.read (b : Block) : Reg → Option Word
  | .cmd => none
  | .status => some b.status
  | .dglen => some (b.dlen.setWidth 32)
  | .dgpush => none
  | .h j => some b.h[j]
  | .dgw j => some (b.digestWord j)
  | .rnib => some (b.rnib.setWidth 32)
  | .pk => some (b.pk.setWidth 32)
  | .fp0 => some (wordOfBytes b.fpc[0] b.fpc[1] b.fpc[2] b.fpc[3])
  | .fp1 => some (b.fpc[4].setWidth 32)
  | .m j => some b.m[j]
  | .id => some idValue

/-- The byte a write to `DGPUSH` offers: `wdata[7:0]`, and none when any of `wdata[31:8]` is set (R67,
R124). -/
def pushByte (wdata : Word) : Option Byte :=
  if wdata.extractLsb' 8 24 ≠ 0#24 then none else some (wdata.extractLsb' 0 8)

/-- The `INFO` of an illegal command word: `wdata[7:0]` (R68). -/
def commandInfo (wdata : Word) : Byte := wdata.extractLsb' 0 8

end Sys2Proof.Machine
end

