-- ==== Sys2Proof/Machine/Digest.lean ====
section
/-! DEFINITION. The digest buffer: DGCLR, DGLATCH and the push through DGPUSH
(spec/42_digest_buffer.md). -/

namespace Sys2Proof.Machine

/-- The little-endian serialisation of the chaining value: byte `4j+k` is `H[j][8k+7:8k]` (R11, R43 (b),
R122). -/
def digestOf (h : Vector Word 4) : Vector Byte 16 :=
  Vector.ofFn fun i : Fin 16 => wordByte h[i.val / 4] (i.val % 4)

/-- DGCLR: the buffer is emptied and its result marked not valid (R121). -/
def dgclr (b : Block) : Answer :=
  { b with dg := Vector.replicate 16 0#8, dlen := 0#8, fpvalid := false }.done

/-- DGLATCH: `DG <- bytes of H`, `DLEN <- 16` (R122). -/
def dglatch (b : Block) : Answer :=
  { b with dg := digestOf b.h, dlen := 16#8, fpvalid := false }.done

/-- An accepted push: the byte goes to `DG[DLEN]` while there is room and is stored nowhere after that;
`DLEN` counts it and saturates at 255 (R124). -/
def pushDigest (b : Block) (v : Byte) : Answer :=
  { b with
    dg := if h : b.dlen.toNat < 16 then b.dg.set b.dlen.toNat v h else b.dg
    dlen := if b.dlen.toNat < 255 then b.dlen + 1#8 else b.dlen
    fpvalid := false }.done

/-- `WR DGPUSH, v` (R124): an access error when `v[31:8]` is not zero; accepted whatever `FAULT` is. -/
def writeDgpush (b : Block) (wdata : Word) : Answer :=
  match pushByte wdata with
  | none => b.accessError
  | some v => pushDigest b v

/-- The instruction DGCLR (R121), refused while a fault is latched (R203). -/
def execDgclr (s : State) : Host.Outcome State Fault Refusal :=
  .next (s.complete (s.blk.unlessLocked dgclr))

/-- The instruction DGLATCH (R122), refused while a fault is latched (R203). -/
def execDglatch (s : State) : Host.Outcome State Fault Refusal :=
  .next (s.complete (s.blk.unlessLocked dglatch))

end Sys2Proof.Machine
end

