-- ==== Sys2Proof/Machine/Fingerprint.lean ====
section
/-! DEFINITION. FPENC, the fingerprint nibble-encoder (spec/43_fingerprint.md), one function per rule. -/

namespace Sys2Proof.Machine

/-- NibbleTable `index` (R23). -/
def nibbleIndex : Vector Half 5 := #v[14#16, 3#16, 6#16, 8#16, 2#16]

/-- NibbleTable `multiplier` (R23). -/
def multiplier : Vector Half 5 := #v[2#16, 2#16, 5#16, 4#16, 3#16]

/-- NibbleTable `addend` (R23). -/
def addend : Vector Half 5 := #v[0#16, 13#16, 16#16, 11#16, 5#16]

/-- Every entry of `index` names one of the 32 nibbles (R133). -/
theorem nibbleIndex_lt : ∀ i : Fin 5, nibbleIndex[i].toNat < 32 := by decide

/-- `readNibble(DG, k)`: the high nibble of byte `k/2` when `k` is even, the low one when odd (R133). -/
def readNibble (dg : Vector Byte 16) (k : Nat) (hk : k < 32) : Nibble :=
  if k % 2 = 0 then dg[k / 2].extractLsb' 4 4 else dg[k / 2].extractLsb' 0 4

/-- `inRange(t)`: the bytes `readCombined` takes lie inside the digest (R136). -/
abbrev inRange (t : Half) : Prop :=
  if t.toNat % 2 = 0 then t.toNat / 2 ≤ 15 else t.toNat / 2 + 1 ≤ 15

/-- `inRange(t)` in its short form, `t + 1 <= 31` (R136). -/
theorem inRange_iff (t : Half) : inRange t ↔ t.toNat + 1 ≤ 31 := by
  unfold inRange
  split <;> omega

/-- `readCombined(DG, t)`: the 8 bits that begin at nibble `t`, widened to 16; defined only when
`inRange(t)` holds (R135). -/
def readCombined (dg : Vector Byte 16) (t : Half) (ht : inRange t) : Half :=
  have hlt : t.toNat + 1 ≤ 31 := (inRange_iff t).mp ht
  if heven : t.toNat % 2 = 0 then dg[t.toNat / 2].setWidth 16
  else
    let low : Nibble := dg[t.toNat / 2].extractLsb' 0 4
    let high : Nibble := dg[t.toNat / 2 + 1].extractLsb' 4 4
    ((low.setWidth 8 <<< 4) ||| high.setWidth 8).setWidth 16

/-- The index `t = addend[i] +16 zext_16(n)` of iteration `i`, `n` the nibble that `index[i]` names
(R134). -/
def combinedIndex (dg : Vector Byte 16) (i : Fin 5) : Half :=
  addend[i] + (readNibble dg nibbleIndex[i].toNat (nibbleIndex_lt i)).setWidth 16

/-- The `INFO` of IndexOutOfRange: `(i << 5) | t[4:0]` (R137). -/
def rangeInfo (i : Fin 5) (t : Half) : Byte :=
  (BitVec.ofNat 8 i.val <<< 5) ||| (t.extractLsb' 0 5).setWidth 8

/-- Iteration `i`: the result nibble `r[i]`, or the `INFO` of the fault that ends the command. The
product is cut to its low byte, then masked with `0x0F` (R131 step 2, R137 to R139). -/
def iteration (dg : Vector Byte 16) (i : Fin 5) : Except Byte Nibble :=
  let t := combinedIndex dg i
  if ht : inRange t then
    let product := readCombined dg t ht * multiplier[i]
    .ok ((product.setWidth 8 &&& 0x0F#8).setWidth 4)
  else .error (rangeInfo i t)

/-- The five iterations, `i = 0` first; the first index out of range ends the command (R131 step 2,
R193). -/
def iterations (dg : Vector Byte 16) : Except Byte (Vector Nibble 5) := do
  let r0 ← iteration dg 0
  let r1 ← iteration dg 1
  let r2 ← iteration dg 2
  let r3 ← iteration dg 3
  let r4 ← iteration dg 4
  return #v[r0, r1, r2, r3, r4]

/-- The packing machine between two visits: the output buffer, the next free slot, the Boolean
`pending` and the accumulator `x` (R141). It lives only inside FPENC (R24). -/
structure PackState where
  p : Vector Byte 3
  w : Fin 3
  pending : Bool
  x : Half
deriving DecidableEq, Repr

/-- The packing machine before the first visit (R141, R24). -/
def packStart : PackState where
  p := #v[0#8, 0#8, 0#8]
  w := 2
  pending := false
  x := 0#16

/-- One visit of the packing machine to an element `v` (R141). -/
def packVisit (s : PackState) (v : Nibble) : PackState :=
  if s.pending then
    let x := s.x ||| ((v.setWidth 16 &&& 0x0F#16) <<< 4)
    { p := s.p.set s.w (x.setWidth 8), w := s.w - 1, pending := false, x := x }
  else { s with x := v.setWidth 16 &&& 0x0F#16, pending := true }

/-- `pack(r)`: the visits in reverse order, then `PACK_TAIL` for the nibble left pending (R141 to
R143). -/
def pack (tail : PackTail) (r : Vector Nibble 5) : Vector Byte 3 :=
  let s := [r[4], r[3], r[2], r[1], r[0]].foldl packVisit packStart
  match tail with
  | .discard => s.p
  | .flush => s.p.set 0 (s.x.setWidth 8)

/-- `hexchar(v)`: the character code of the lowercase hexadecimal digit (R144). -/
def hexchar (v : Nibble) : Byte :=
  if v.toNat ≤ 9 then 0x30#8 + v.setWidth 8 else 0x61#8 + (v.setWidth 8 - 10#8)

/-- `S6 = hex2(P[0]) ++ hex2(P[1]) ++ hex2(P[2])`, each byte high digit first (R144, R145). -/
def hex6 (p : Vector Byte 3) : Vector Byte 6 :=
  #v[hexchar (p[0].extractLsb' 4 4), hexchar (p[0].extractLsb' 0 4),
     hexchar (p[1].extractLsb' 4 4), hexchar (p[1].extractLsb' 0 4),
     hexchar (p[2].extractLsb' 4 4), hexchar (p[2].extractLsb' 0 4)]

/-- The Fingerprint: `S6` without its first character, five characters (R146). -/
def fingerprint (p : Vector Byte 3) : Vector Byte 5 :=
  let s6 := hex6 p
  #v[s6[1], s6[2], s6[3], s6[4], s6[5]]

/-- The layout of RNIB: `RNIB[4i+3:4i] = r[i]` (R15, R148). -/
def rnibOf (r : Vector Nibble 5) : BitVec 20 := r[4] ++ r[3] ++ r[2] ++ r[1] ++ r[0]

/-- The layout of PK: `P[0] ++ P[1] ++ P[2]` (R16, R43 (d), R148). -/
def pkOf (p : Vector Byte 3) : BitVec 24 := p[0] ++ p[1] ++ p[2]

/-- What a completed FPENC writes back (R148). -/
structure Encoding where
  rnib : BitVec 20
  pk : BitVec 24
  fpc : Vector Byte 5
deriving DecidableEq, Repr

/-- The results of FPENC for a digest of 16 bytes, or the `INFO` of its IndexOutOfRange (R131 steps 2 to
6). -/
def encodeDigest (tail : PackTail) (dg : Vector Byte 16) : Except Byte Encoding := do
  let r ← iterations dg
  let p := pack tail r
  return { rnib := rnibOf r, pk := pkOf p, fpc := fingerprint p }

/-- FPENC (R131): the length check before any nibble is read (R132), then the encoding; the results are
written all together, and only when no fault was raised (R148). -/
def fpenc (tail : PackTail) (b : Block) : Answer :=
  if b.dlen ≠ 16#8 then b.raise .invalidDigestLength b.dlen
  else
    match encodeDigest tail b.dg with
    | .error info => b.raise .indexOutOfRange info
    | .ok e => { b with rnib := e.rnib, pk := e.pk, fpc := e.fpc, fpvalid := true }.done

/-- The instruction FPENC (R131), refused while a fault is latched (R203). -/
def execFpenc (s : State) : Host.Outcome State Fault Refusal :=
  .next (s.complete (s.blk.unlessLocked (fpenc Config.packTail)))

end Sys2Proof.Machine
end

