-- ==== Sys2Proof/Machine/Md5.lean ====
section
/-! DEFINITION. The MD5 commands MDINIT and MDCOMP (spec/41_md5.md). -/

namespace Sys2Proof.Machine

/-- The working variables `a`, `b`, `c`, `d` of MDCOMP (R106). They are not state (R24). -/
structure Md5Vars where
  a : Word
  b : Word
  c : Word
  d : Word
deriving DecidableEq, Repr

/-- One step `i` of the compression, the four variables assigned at once (R106). -/
def md5Step (m : Vector Word 16) (i : Fin 64) (v : Md5Vars) : Md5Vars :=
  let f := roundFunction i v.b v.c v.d
  let sum := v.a + f + kTable[i] + m[messageWord i]
  let newb := v.b + rotl32 sum (rotationAmount i)
  { a := v.d, b := newb, c := v.b, d := v.c }

/-- The working variables after the steps 0 to `n - 1` (R106). -/
def md5Steps (m : Vector Word 16) (v : Md5Vars) : Nat → Md5Vars
  | 0 => v
  | n + 1 => md5Step m (Fin.ofNat 64 n) (md5Steps m v n)

/-- The MD5 compression function: 64 steps, then the additions to the chaining value (R106). -/
def compress (h : Vector Word 4) (m : Vector Word 16) : Vector Word 4 :=
  let v := md5Steps m { a := h[0], b := h[1], c := h[2], d := h[3] } 64
  #v[h[0] + v.a, h[1] + v.b, h[2] + v.c, h[3] + v.d]

/-- MDINIT: `H <- IV` (R101). -/
def mdinit (b : Block) : Answer := { b with h := iv }.done

/-- MDCOMP: `H <- compress(H, M)`; `M` is left unchanged (R106). -/
def mdcomp (b : Block) : Answer := { b with h := compress b.h b.m }.done

/-- The instruction MDINIT (R101), refused while a fault is latched (R203). -/
def execMdinit (s : State) : Host.Outcome State Fault Refusal :=
  .next (s.complete (s.blk.unlessLocked mdinit))

/-- The instruction MDCOMP (R106), refused while a fault is latched (R203). -/
def execMdcomp (s : State) : Host.Outcome State Fault Refusal :=
  .next (s.complete (s.blk.unlessLocked mdcomp))

end Sys2Proof.Machine
end

