-- ==== Sys2Proof/Machine/System.lean ====
section
/-! DEFINITION. The system commands NOP, CLRF and SRESET (spec/44_system.md). -/

namespace Sys2Proof.Machine

/-- NOP: nothing (R160). -/
def nop (b : Block) : Answer := b.done

/-- CLRF: the latched fault is cleared, whether or not there is one (R162). -/
def clrf (b : Block) : Answer := b.clearFault.done

/-- SRESET: every component takes its reset value (R163). -/
def sreset (_ : Block) : Answer := Block.reset.done

/-- The instruction NOP (R160), refused while a fault is latched (R203). -/
def execNop (s : State) : Host.Outcome State Fault Refusal :=
  .next (s.complete (s.blk.unlessLocked nop))

/-- The instruction CLRF (R162), never refused. -/
def execClrf (s : State) : Host.Outcome State Fault Refusal :=
  .next (s.complete (clrf s.blk))

/-- The instruction SRESET (R163), never refused. -/
def execSreset (s : State) : Host.Outcome State Fault Refusal :=
  .next (s.complete (sreset s.blk))

end Sys2Proof.Machine
end

