-- ==== Sys2Proof/Machine/Bus.lean ====
section
/-! DEFINITION. The bus transactions RD and WR (spec/40_bus_access.md), with the dispatch of a write to
CMD. -/

namespace Sys2Proof.Machine

/-- The effect of a command that is not locked out (R66). -/
def runCommand (tail : PackTail) : Opcode → Block → Answer
  | .nop => nop
  | .mdinit => mdinit
  | .mdcomp => mdcomp
  | .dglatch => dglatch
  | .dgclr => dgclr
  | .fpenc => fpenc tail
  | .clrf => clrf
  | .sreset => sreset

/-- `WR CMD, w` (R84): CLRF and SRESET by all 32 bits before the lockout, then the lockout, then the
illegal words, then the command. -/
def writeCmd (tail : PackTail) (b : Block) (w : Word) : Answer :=
  if w = 0x00000006#32 then clrf b
  else if w = 0x00000007#32 then sreset b
  else if b.fault then (b, .error .faultLocked)
  else
    match Opcode.ofWord w with
    | none => b.raise .illegalCommand (commandInfo w)
    | some op => runCommand tail op b

/-- A write to a register; an access error where the register is read-only (R83 to R86, R124). -/
def writeReg (tail : PackTail) (b : Block) (wdata : Word) : Reg → Answer
  | .cmd => writeCmd tail b wdata
  | .status => b.accessError
  | .dglen => b.accessError
  | .dgpush => writeDgpush b wdata
  | .h j => { b with h := b.h.set j wdata }.done
  | .dgw _ => b.accessError
  | .rnib => b.accessError
  | .pk => b.accessError
  | .fp0 => b.accessError
  | .fp1 => b.accessError
  | .m j => { b with m := b.m.set j wdata }.done
  | .id => b.accessError

/-- A bus read: an access error where the address names no register (R81, R82) or a write-only one
(R83), else the register's value. No read changes anything (R47). -/
def busRead (b : Block) (addr : Addr) : Answer :=
  match regAt addr with
  | none => b.accessError
  | some r =>
    match b.read r with
    | none => b.accessError
    | some v => (b, .okay v)

/-- A bus write: an access error where the address names no register (R81, R82), else the write of that
register. -/
def busWrite (tail : PackTail) (b : Block) (addr : Addr) (wdata : Word) : Answer :=
  match regAt addr with
  | none => b.accessError
  | some r => writeReg tail b wdata r

/-- The instruction RD (R80). -/
def execRd (addr : Addr) (s : State) : Host.Outcome State Fault Refusal :=
  .next (s.complete (busRead s.blk addr))

/-- The instruction WR (R80). -/
def execWr (addr : Addr) (wdata : Word) (s : State) : Host.Outcome State Fault Refusal :=
  .next (s.complete (busWrite Config.packTail s.blk addr wdata))

end Sys2Proof.Machine
end

