-- ==== Sys2Proof/Machine/Dispatch.lean ====
section
/-! DEFINITION. One arm per row of spec/opcode_table.json, each a direct call of its meaning. -/

namespace Sys2Proof.Machine

def exec (i : Instr) (s : State) : Host.Outcome State Fault Refusal :=
  match i with
  | .rd addr => Sys2Proof.Machine.execRd addr s
  | .wr addr wdata => Sys2Proof.Machine.execWr addr wdata s
  | .nop => Sys2Proof.Machine.execNop s
  | .mdinit => Sys2Proof.Machine.execMdinit s
  | .mdcomp => Sys2Proof.Machine.execMdcomp s
  | .dglatch => Sys2Proof.Machine.execDglatch s
  | .dgclr => Sys2Proof.Machine.execDgclr s
  | .fpenc => Sys2Proof.Machine.execFpenc s
  | .clrf => Sys2Proof.Machine.execClrf s
  | .sreset => Sys2Proof.Machine.execSreset s

end Sys2Proof.Machine
end

