-- ==== Sys2Proof/Machine/Fetch.lean ====
section
/-! DEFINITION. Taking the next input of the host port, and placing an instruction there. -/

namespace Sys2Proof.Machine

/-- The input the block takes next, and the state once it is taken: the oldest one issued (R50). None
when nothing is pending. -/
def nextInput (s : State) : Option (Input × State) :=
  match s.pending with
  | [] => none
  | i :: rest => some (i, { s with pending := rest })

/-- The transaction that carries the instruction whose bits are `w` (R60, R66): a T word for more than 32
bits, else a C word in a write to `CMD` (log entries 2, 6, 7). -/
def fetchTransaction (nbits w : Nat) : TWord :=
  if nbits ≤ 32 then CodeWord.transaction (.c (BitVec.ofNat 32 w))
  else CodeWord.transaction (.t (BitVec.ofNat 41 w))

end Sys2Proof.Machine
end

