-- ==== Sys2Proof/Machine/Step.lean ====
section
/-! DEFINITION. One step of the machine: one transaction, or the hardware reset input, or nothing. -/

namespace Sys2Proof.Machine

/-- One step (R80, R50): the oldest input is taken; a transaction is decoded and executed, the hardware
reset input resets the block (R221), and with nothing pending the block idles and holds its state (R215;
log entry 4). -/
def step (s : State) : Host.Outcome State Fault Refusal :=
  match nextInput s with
  | none => .next s
  | some (.hardwareReset, s') => .next s'.hardwareReset
  | some (.transaction w, s') => exec (decodeT w) s'

/-- The state in which the next step takes the instruction whose bits are `w`, as the next transaction
the host issues (log entry 2). -/
def State.withFetchWord (s : State) (nbits w : Nat) : State :=
  { s with pending := .transaction (fetchTransaction nbits w) :: s.pending }

end Sys2Proof.Machine
end

