-- ==== Sys2Proof/Machine/HostSequences.lean ====
section
/-! DEFINITION. What the host does with the block: the expansion of the assembler statements (R71, R72)
and the host sequences of spec/45_host_sequences.md. These are duties of the host, not behaviour of the
block; file access is out of scope (R5, R170; log entry 12). -/

namespace Sys2Proof.Machine

/-- The writes of a list of words to consecutive word addresses, ascending. -/
def writeWords : Addr → List Word → List TWord
  | _, [] => []
  | a, w :: ws => mkT true a w :: writeWords (a + 4#8) ws

/-- Byte `n` of a byte sequence, 0 past its end. -/
def byteAt (bs : List Byte) (n : Nat) : Byte := (bs[n]?).getD 0#8

/-- Message word `j` of the 64-byte block that begins at byte `at0`, low byte first (R43 (a), R72
`LDBLKB`). -/
def messageWordAt (bs : List Byte) (at0 j : Nat) : Word :=
  wordOfBytes (byteAt bs (at0 + 4 * j)) (byteAt bs (at0 + 4 * j + 1)) (byteAt bs (at0 + 4 * j + 2))
    (byteAt bs (at0 + 4 * j + 3))

/-- The sixteen message words of the block that begins at byte `at0`. -/
def blockAt (bs : List Byte) (at0 : Nat) : Vector Word 16 :=
  Vector.ofFn fun j : Fin 16 => messageWordAt bs at0 j.val

/-- `PUSH b` (R72). -/
def pushT (b : Byte) : TWord := mkT true (address .dgpush) (b.setWidth 32)

/-- A command as a transaction, `WR CMD, word` (R72). -/
def commandT (op : Opcode) : TWord := mkT true (address .cmd) op.word

/-- The T words a statement expands to, in order (R71, R72). -/
def expand : Stmt → List TWord
  | .rd addr => [mkT false addr 0#32]
  | .wr addr data => [mkT true addr data]
  | .command op => [commandT op]
  | .push b => [pushT (BitVec.ofNat 8 b)]
  | .ldblk ws => writeWords (address (.m 0)) ws
  | .ldblkb bs => writeWords (address (.m 0)) (blockAt bs 0).toList
  | .ldh a b c d => writeWords (address (.h 0)) [a, b, c, d]
  | .pushdg bs => commandT .dgclr :: bs.map pushT

/-- The T words of a listing (R60: a program is a finite sequence of T words). -/
def assemble (p : List Stmt) : List TWord := p.flatMap expand

/-- The host issues transactions: they are taken after what is already pending (R50). -/
def State.issue (s : State) (ws : List TWord) : State :=
  { s with pending := s.pending ++ ws.map Input.transaction }

/-- `MAX_PREFIX` (R6, R173). -/
def maxPrefix : Nat := 10485760

/-- RawPrefix: the leading bytes of a file that are digested (R9, R170). -/
def rawPrefix (file : List Byte) : List Byte := file.take maxPrefix

/-- The 8-byte little-endian encoding of `(8 * L) mod 2^64` (R172). -/
def lengthField (len : Nat) : List Byte :=
  let bits : BitVec 64 := BitVec.ofNat 64 (8 * len)
  (List.range 8).map fun k => bits.extractLsb' (8 * k) 8

/-- The fewest zero bytes that make the length after `0x80` congruent to 56 modulo 64 (R172). -/
def padZeros (len : Nat) : Nat := (119 - len % 64) % 64

/-- `pad(m)` (R172). -/
def pad (msg : List Byte) : List Byte :=
  msg ++ [0x80#8] ++ List.replicate (padZeros msg.length) 0#8 ++ lengthField msg.length

/-- The 64-byte blocks of a byte sequence, in order. -/
def blocksOf (p : List Byte) : List (List Byte) :=
  (List.range (p.length / 64)).map fun n => (p.drop (64 * n)).take 64

/-- The statements of R171 steps 1 to 3: MDINIT, then each block loaded and compressed. -/
def md5Listing (msg : List Byte) : List Stmt :=
  .command .mdinit :: (blocksOf (pad msg)).flatMap fun blk => [.ldblkb blk, .command .mdcomp]

/-- The chaining value that MD5 gives for a byte sequence (R171): the compression function over the
blocks of the padded message, from `IV`. -/
def md5 (msg : List Byte) : Vector Word 4 :=
  (blocksOf (pad msg)).foldl (fun h blk => compress h (blockAt blk 0)) iv

/-- `extractDigest` once the file's bytes are there: the 16 bytes of the Digest (R170, R171). -/
def extractDigest (file : List Byte) : Vector Byte 16 := digestOf (md5 (rawPrefix file))

/-- The straight path of R174, the one taken when FPENC answers `OKAY`: latch, encode, read the characters.
The host's choice on the response is `encodeAndRead`. -/
def fingerprintListing : List Stmt :=
  [.command .dglatch, .command .fpenc, .rd (address .fp0), .rd (address .fp1)]

/-- The five characters in the words read from `FP0` and `FP1` (R174 step 3). -/
def charactersOf (a b : Word) : Vector Byte 5 :=
  #v[wordByte a 0, wordByte a 1, wordByte a 2, wordByte a 3, wordByte b 0]

/-! ### Sequences in which the host looks at a response -/

/-- The data of a response, 0 for an error (R63). -/
def Response.data : Response → Word
  | .okay v => v
  | .error _ => 0#32

/-- The host issues one transaction, waits, and takes its response (R50: the response is produced before
the next transaction is accepted). None where something else is still pending. -/
def State.perform (s : State) (w : TWord) : Option (State × Response) :=
  match s.pending with
  | [] =>
    match step (s.issue [w]) with
    | .next t => t.responses.head?.map fun r => (t, r)
    | .fault _ => none
    | .refused _ => none
  | _ :: _ => none

/-- Transactions performed one after the other, whatever their responses. -/
def State.performAll (s : State) : List TWord → Option State
  | [] => some s
  | w :: ws => (s.perform w).bind fun p => p.1.performAll ws

/-- What `encodeFingerprint` returns to its caller: the Fingerprint, or the error of the response (R174
step 3, R199). -/
abbrev FingerprintResult := Except ErrorCode (Vector Byte 5)

/-- R174 step 3, first branch: `RD FP0`, `RD FP1`, and the characters in the two words. -/
def State.readCharacters (s : State) : Option (State × Vector Byte 5) := do
  let a ← s.perform (mkT false (address .fp0) 0#32)
  let b ← a.1.perform (mkT false (address .fp1) 0#32)
  return (b.1, charactersOf a.2.data b.2.data)

/-- R174 steps 2 and 3: FPENC, then the characters when it answered `OKAY`; else nothing more is issued
and the operation has failed with the error named by the code. -/
def State.encodeAndRead (s : State) : Option (State × FingerprintResult) := do
  let f ← s.perform (commandT .fpenc)
  match f.2 with
  | .okay _ => (f.1.readCharacters).map fun p => (p.1, .ok p.2)
  | .error c => return (f.1, .error c)

/-- `encodeFingerprint` on the digest just computed (R174). -/
def State.encodeLatched (s : State) : Option (State × FingerprintResult) :=
  (s.performAll [commandT .dglatch]).bind State.encodeAndRead

/-- `encodeFingerprint` on a digest the host holds, a byte sequence of any length: DGCLR, a push for each
byte, then R174 from step 2 on (R175). -/
def State.encodePushed (s : State) (digest : List Byte) : Option (State × FingerprintResult) :=
  (s.performAll (expand (.pushdg digest))).bind State.encodeAndRead

/-- The test of a word read from `STATUS`: `FPVALID = 1` and `FAULT = 0` (R174, R18). -/
def statusShowsResult (status : Word) : Bool := status.getLsbD 1 && !status.getLsbD 0

/-- `encodeFingerprint` with the test of `STATUS` in place of that of the response (R174, last sentence).
On failure the error is the one `STATUS` holds in `CAUSE` (R177; log entry 12), none where it holds
none. -/
def State.encodeLatchedByStatus (s : State) :
    Option (State × Except (Option ErrorCode) (Vector Byte 5)) := do
  let t ← s.performAll [commandT .dglatch, commandT .fpenc]
  let q ← t.perform (mkT false (address .status) 0#32)
  if statusShowsResult q.2.data then (q.1.readCharacters).map fun p => (p.1, .ok p.2)
  else return (q.1, .error (ErrorCode.ofCode (q.2.data.extractLsb' 8 4)))

/-- `hex32(DG)`, the rendering of the whole digest (R178): character `k` is the digit of nibble `k`. -/
def hex32 (dg : Vector Byte 16) : Vector Byte 32 :=
  Vector.ofFn fun k : Fin 32 => hexchar (readNibble dg k.val k.isLt)

end Sys2Proof.Machine
end

