-- ==== Sys2Proof/Machine/Transact.lean ====
section
/-! DEFINITION. The step of R80 written as the spec writes it, over address ranges and with its checks in
its order: the total function from a block and a transaction to a block and a response
(92_eei_decisions.md D5). The machine's `step` is stated to agree with it. -/

namespace Sys2Proof.Machine

/-- "Readable addresses: `0x04`, `0x08`, `0x10` to `0x3C`, `0x40` to `0x7C`, `0x80`" (R80). -/
def readableAddr (a : Nat) : Bool :=
  a = 0x04 || a = 0x08 || (0x10 ≤ a && a ≤ 0x3C) || (0x40 ≤ a && a ≤ 0x7C) || a = 0x80

/-- "Writable addresses: `0x00`, `0x0C`, `0x10` to `0x1C`, `0x40` to `0x7C`" (R80). -/
def writableAddr (a : Nat) : Bool :=
  a = 0x00 || a = 0x0C || (0x10 ≤ a && a ≤ 0x1C) || (0x40 ≤ a && a ≤ 0x7C)

/-- The value of the readable register at an aligned address (R80 step 4, R85 to R90). -/
def valueAt (b : Block) (a : Nat) : Word :=
  if a = 0x04 then b.status
  else if a = 0x08 then b.dlen.setWidth 32
  else if a ≤ 0x1C then b.h[Fin.ofNat 4 ((a - 0x10) / 4)]
  else if a ≤ 0x2C then b.digestWord (Fin.ofNat 4 ((a - 0x20) / 4))
  else if a = 0x30 then b.rnib.setWidth 32
  else if a = 0x34 then b.pk.setWidth 32
  else if a = 0x38 then wordOfBytes b.fpc[0] b.fpc[1] b.fpc[2] b.fpc[3]
  else if a = 0x3C then b.fpc[4].setWidth 32
  else if a ≤ 0x7C then b.m[Fin.ofNat 16 ((a - 0x40) / 4)]
  else idValue

/-- The write of a writable register at an aligned address (R80 step 5). -/
def writeAt (tail : PackTail) (b : Block) (a : Nat) (wdata : Word) : Answer :=
  if a = 0x00 then writeCmd tail b wdata
  else if a = 0x0C then writeDgpush b wdata
  else if a ≤ 0x1C then
    { b with h := b.h.set (Fin.ofNat 4 ((a - 0x10) / 4)) wdata }.done
  else { b with m := b.m.set (Fin.ofNat 16 ((a - 0x40) / 4)) wdata }.done

/-- R80: execution of one transaction. -/
def transact (tail : PackTail) (we : Bool) (addr : Addr) (wdata : Word) (b : Block) : Answer :=
  if addr.toNat % 4 ≠ 0 then b.accessError
  else if addr.toNat > 0x80 then b.accessError
  else if we = false ∧ readableAddr addr.toNat = false then b.accessError
  else if we = true ∧ writableAddr addr.toNat = false then b.accessError
  else if we then writeAt tail b addr.toNat wdata
  else (b, .okay (valueAt b addr.toNat))

/-- R80 on a T word (R61). -/
def transactT (tail : PackTail) (w : TWord) (b : Block) : Answer :=
  transact tail (tWe w) (tAddr w) (tData w) b

/-- A sequence of transactions: each completely before the next (R50). The responses come newest
first. -/
def transactAll (tail : PackTail) : List TWord → Block → Block × List Response
  | [], b => (b, [])
  | w :: ws, b =>
    let a := transactT tail w b
    let rest := transactAll tail ws a.1
    (rest.1, rest.2 ++ [a.2])

end Sys2Proof.Machine
end

