-- ==== Sys2Proof/Safety.lean ====
section
/-! DEFINITION. The terms claims use: the invariants the spec names, reachable states, safe runs. -/

namespace Sys2Proof.Safety

open Sys2Proof.Machine

/-- The buffer's invariant (R14): cells `DG[j]` with `j >= min(DLEN, 16)` hold 0. -/
abbrev BufferTailZero (b : Block) : Prop :=
  ∀ j : Fin 16, min b.dlen.toNat 16 ≤ j.val → b.dg[j] = 0#8

/-- The invariant between the fault fields (R19). -/
abbrev FaultFieldsAgree (b : Block) : Prop :=
  (b.fault = false → b.cause = 0#4 ∧ b.info = 0#8) ∧
    (b.fault = true → b.cause = 1#4 ∨ b.cause = 2#4 ∨ b.cause = 3#4)

/-- The meaning of `FPVALID` (R20): the buffer holds a digest, and the results are what FPENC computes
from it. -/
abbrev ResultsCurrent (b : Block) : Prop :=
  b.fpvalid = true →
    b.dlen = 16#8 ∧ encodeDigest Config.packTail b.dg = .ok { rnib := b.rnib, pk := b.pk, fpc := b.fpc }

/-- The code of a lowercase hexadecimal digit (R144). -/
abbrev IsHexCode (c : Byte) : Prop :=
  (0x30 ≤ c.toNat ∧ c.toNat ≤ 0x39) ∨ (0x61 ≤ c.toNat ∧ c.toNat ≤ 0x66)

/-- The characters' invariant (R17): each cell holds one of the sixteen codes, or `0x00`. -/
abbrev CharactersLegal (b : Block) : Prop :=
  ∀ k : Fin 5, b.fpc[k] = 0#8 ∨ IsHexCode b.fpc[k]

/-- The invariant of the block: R14, R17, R19 and R20 together. -/
structure BlockInv (b : Block) : Prop where
  bufferTail : BufferTailZero b
  faultFields : FaultFieldsAgree b
  results : ResultsCurrent b
  characters : CharactersLegal b

/-- The invariant of the machine: that of its block; the host port is free. -/
def StateInv (s : State) : Prop := BlockInv s.blk

/-- `k` steps from `s` end in the state `t`. -/
def RunsTo (k : Nat) (s t : State) : Prop := Host.Core.run Sys2Proof.core k s = .next t

/-- A safe run: `k` steps reach neither a fault nor a refusal of the model. -/
def SafeFor (k : Nat) (s : State) : Prop := ∃ t, RunsTo k s t

/-- The next input is a transaction that writes `word` to `CMD` (R84). -/
abbrev NextWritesCmd (s : State) (word : Word) : Prop :=
  s.pending.head? = some (.transaction (mkT true 0x00#8 word))

/-- The next input is the hardware reset (R221). -/
abbrev NextIsReset (s : State) : Prop := s.pending.head? = some .hardwareReset

/-- The state in which a transaction taken in `s` has left the block `b` and the response `r`. -/
abbrev afterAnswer (s : State) (b : Block) (r : Response) : State :=
  { blk := b, pending := s.pending, responses := r :: s.responses }

/-- The outcome of a transaction taken in `s` that leaves the block `b` and answers `r`. -/
abbrev answers (s : State) (b : Block) (r : Response) : Host.Outcome State Fault Refusal :=
  .next (afterAnswer s b r)

/-- Nibble `k` of the digest read as a flat sequence of 32 nibbles, high nibble of byte 0 first, as a
number (R9, R133, R43 (c)); 0 past the end. -/
def flatNibble (dg : Vector Byte 16) (k : Nat) : Nat :=
  let byte := ((dg.toList[k / 2]?).getD 0#8).toNat
  if k % 2 = 0 then byte / 16 else byte % 16

/-- The closed form of a result nibble (R139): `readNibble(DG, t + 1) * multiplier mod 16` with
`t = addend + readNibble(DG, index)`. -/
def closedNibble (dg : Vector Byte 16) (index addend multiplier : Nat) : Nat :=
  flatNibble dg (addend + flatNibble dg index + 1) * multiplier % 16

/-- The first packed byte: zero with `DISCARD`, `r[0]` with `FLUSH` (R142, R143). -/
def firstPacked (tail : PackTail) (r0 : Nat) : Nat := if tail = .flush then r0 else 0

/-- The ASCII code of the lowercase hexadecimal digit of a number below 16 (R144). -/
def hexCode (n : Nat) : Byte := BitVec.ofNat 8 (if n < 10 then 48 + n else 87 + n)

/-- The 16 bytes whose hexadecimal rendering is the MD5 of the empty message (R43 (b)). -/
def emptyMessageDigest : Vector Byte 16 :=
  #v[0xd4#8, 0x1d#8, 0x8c#8, 0xd9#8, 0x8f#8, 0x00#8, 0xb2#8, 0x04#8,
     0xe9#8, 0x80#8, 0x09#8, 0x98#8, 0xec#8, 0xf8#8, 0x42#8, 0x7e#8]

end Sys2Proof.Safety
end

