-- ==== Sys2Proof/Certificates/Slice0/Obligations.lean ====
section
/-! DEFINITION. The statements for the provers. Each docstring names the rules of spec/ it formalises.
Statements about FPENC hold for both values of `PACK_TAIL`, since `Config.packTail` has no body (log
entry 3). -/

section

open Sys2Proof Sys2Proof.Machine Sys2Proof.Safety

/-! ### Formats and decoding -/

/-- The decoder inverts the encoder on every well-formed instruction, and the encoder inverts the
decoder on `WR` words and on C words that decode; a `RD` word re-encodes with `wdata = 0`, since a read
ignores its `wdata` (R62). -/
def Obligations.DecodeEncodeRoundTrip : Prop :=
  (∀ i : Instr, i.wf = true → decode (encode i) = .ok i) ∧
  (∀ w : TWord, tWe w = true → encode (decodeT w) = .t w) ∧
  (∀ w : TWord, tWe w = false → encode (decodeT w) = .t (mkT false (tAddr w) 0#32)) ∧
  (∀ (w : Word) (i : Instr), decode (.c w) = .ok i → encode i = .c w)

/-- A transaction given as the number `we * 2^40 + addr * 2^32 + wdata` (R61) decodes to `RD addr` or
`WR addr, wdata` (R62); a read is emitted with `wdata = 0`. That the number is offered in 48 bits, and that
more than 32 bits is read as a T word, is the model's choice (log entry 7, DESIGN CHOICE). -/
def Obligations.TransactionNumberDecodes : Prop :=
  ∀ (addr : Addr) (wdata : Word),
    (mkT false addr wdata).toNat = addr.toNat * 2 ^ 32 + wdata.toNat ∧
    (mkT true addr wdata).toNat = 2 ^ 40 + addr.toNat * 2 ^ 32 + wdata.toNat ∧
    decodeBits 48 (addr.toNat * 2 ^ 32 + wdata.toNat) = .ok (.rd addr) ∧
    decodeBits 48 (2 ^ 40 + addr.toNat * 2 ^ 32 + wdata.toNat) = .ok (.wr addr wdata) ∧
    encode (.rd addr) = .t (mkT false addr 0#32) ∧
    encode (.wr addr wdata) = .t (mkT true addr wdata)

/-- R66, R68: the eight command words, and every other 32-bit value illegal. -/
def Obligations.CommandWordsAreZeroToSeven : Prop :=
  decode (.c 0#32) = .ok .nop ∧ decode (.c 1#32) = .ok .mdinit ∧
  decode (.c 2#32) = .ok .mdcomp ∧ decode (.c 3#32) = .ok .dglatch ∧
  decode (.c 4#32) = .ok .dgclr ∧ decode (.c 5#32) = .ok .fpenc ∧
  decode (.c 6#32) = .ok .clrf ∧ decode (.c 7#32) = .ok .sreset ∧
  ∀ w : Word, 7 < w.toNat → decode (.c w) = .error (.illegalCommand w)

/-- A word of each row of the opcode table, written out from its encoding (R61, R66). The containers, 48 bits
for a T word and 32 for a C word, are the model's choice (log entry 7, DESIGN CHOICE). -/
def Obligations.WrittenWordsDecode : Prop :=
  decodeTableWord 48 0x08000000000 = some (.rd 0x80#8) ∧
  decodeTableWord 48 0x17CDEADBEEF = some (.wr 0x7C#8 0xDEADBEEF#32) ∧
  decodeTableWord 32 0x00000000 = some .nop ∧
  decodeTableWord 32 0x00000001 = some .mdinit ∧
  decodeTableWord 32 0x00000002 = some .mdcomp ∧
  decodeTableWord 32 0x00000003 = some .dglatch ∧
  decodeTableWord 32 0x00000004 = some .dgclr ∧
  decodeTableWord 32 0x00000005 = some .fpenc ∧
  decodeTableWord 32 0x00000006 = some .clrf ∧
  decodeTableWord 32 0x00000007 = some .sreset ∧
  decodeTableWord 32 0x00000106 = none

/-- R63, R64: the S word of every response as a number, and its decoding. -/
def Obligations.ResponseWordRoundTrip : Prop :=
  (∀ r : Response, Response.ofSWord r.sWord = some r) ∧
  (∀ (w : SWord) (r : Response), Response.ofSWord w = some r → r.sWord = w) ∧
  (∀ v : Word, (Response.okay v).sWord.toNat = v.toNat) ∧
  (Response.error (.fault .invalidDigestLength)).sWord.toNat = 2 ^ 36 + 1 * 2 ^ 32 ∧
  (Response.error (.fault .indexOutOfRange)).sWord.toNat = 2 ^ 36 + 2 * 2 ^ 32 ∧
  (Response.error (.fault .illegalCommand)).sWord.toNat = 2 ^ 36 + 3 * 2 ^ 32 ∧
  (Response.error .accessError).sWord.toNat = 2 ^ 36 + 4 * 2 ^ 32 ∧
  (Response.error .faultLocked).sWord.toNat = 2 ^ 36 + 5 * 2 ^ 32

/-- R41, R42, R45: the address map is a bijection between the registers and the aligned addresses up to
`0x80`; every other address names nothing. -/
def Obligations.AddressMapIsExact : Prop :=
  (∀ r : Reg, regAt (address r) = some r) ∧
  (∀ (a : Addr) (r : Reg), regAt a = some r → address r = a) ∧
  (∀ a : Addr, regAt a = none ↔ a.toNat % 4 ≠ 0 ∨ 0x80 < a.toNat)

/-! ### The step -/

/-- R62, R80: when a transaction is the next input, the step is `exec` of the instruction its T word
decodes to, in the state that has taken it. -/
def Obligations.StepRunsDecodedTransaction : Prop :=
  ∀ (s : State) (w : TWord) (rest : List Input), s.pending = .transaction w :: rest →
    (decodeT w).wf = true ∧ decode (.t w) = .ok (decodeT w) ∧
    step s = exec (decodeT w) { s with pending := rest }

/-- R215, R221, R26: with nothing pending the block holds its state; the hardware reset input sets every
component to its reset value and answers nothing. That the port's lists stay is the model's choice (log
entries 4, 5). -/
def Obligations.IdleAndHardwareReset : Prop :=
  (∀ s : State, s.pending = [] → step s = .next s) ∧
  (∀ (s : State) (rest : List Input), s.pending = .hardwareReset :: rest →
    step s = .next { blk := Block.reset, pending := rest, responses := s.responses })

/-- R80: the step agrees with the total function the spec writes, whose checks are over address ranges and
in the spec's order. -/
def Obligations.StepRefinesTransact : Prop :=
  ∀ (s : State) (w : TWord) (rest : List Input), s.pending = .transaction w :: rest →
    let answer := transact Config.packTail (tWe w) (tAddr w) (tData w) s.blk
    step s = .next { blk := answer.1, pending := rest, responses := answer.2 :: s.responses }

/-- R50: running the block on a sequence of transactions is the fold of the one-transaction function, and
what is pending behind them is untouched. -/
def Obligations.IssuedSequenceIsFold : Prop :=
  ∀ (s : State) (ws : List TWord) (rest : List Input),
    s.pending = ws.map Input.transaction ++ rest →
    let result := transactAll Config.packTail ws s.blk
    RunsTo ws.length s
      { blk := result.1, pending := rest, responses := result.2 ++ s.responses }

/-- R80, R231: every step answers a next state, takes the oldest input if there is one, and gives exactly
one response for a transaction and none otherwise. That a step with nothing pending answers a next state
(log entry 4) and that the hardware reset keeps what is pending and the responses (log entry 5) is the
model's choice. -/
def Obligations.EveryTransactionIsAnsweredOnce : Prop :=
  ∀ s : State, ∃ t : State, step s = .next t ∧ t.pending = s.pending.tail ∧
    (∀ w : TWord, s.pending.head? = some (.transaction w) →
      ∃ r : Response, t.responses = r :: s.responses) ∧
    ((∀ w : TWord, s.pending.head? ≠ some (.transaction w)) → t.responses = s.responses)

/-- R80, R231: no run of any length stops. That the steps after the last pending input answer a next state
is the model's choice (log entry 4): the spec has no step without an input. -/
def Obligations.NoRunStops : Prop :=
  ∀ (k : Nat) (s : State), SafeFor k s

/-! ### Reads, writes and access errors -/

/-- R85: read and write of `H0..H3`, whatever `FAULT` is; nothing else changes. -/
def Obligations.ChainingRegisterAccess : Prop :=
  ∀ (s : State) (j : Fin 4) (v : Word),
    exec (.rd (BitVec.ofNat 8 (0x10 + 4 * j.val))) s = answers s s.blk (.okay s.blk.h[j]) ∧
    exec (.wr (BitVec.ofNat 8 (0x10 + 4 * j.val)) v) s =
      answers s { s.blk with h := s.blk.h.set j v } (.okay 0#32)

/-- R86: read and write of `M0..M15`, whatever `FAULT` is; nothing else changes. MDCOMP, MDINIT and
DGLATCH clear none of them (SRESET does, R163). -/
def Obligations.MessageRegisterAccess : Prop :=
  (∀ (s t : State) (i : Instr), i = .mdcomp ∨ i = .mdinit ∨ i = .dglatch →
    exec i s = .next t → t.blk.m = s.blk.m) ∧
  ∀ (s : State) (j : Fin 16) (v : Word),
    exec (.rd (BitVec.ofNat 8 (0x40 + 4 * j.val))) s = answers s s.blk (.okay s.blk.m[j]) ∧
    exec (.wr (BitVec.ofNat 8 (0x40 + 4 * j.val)) v) s =
      answers s { s.blk with m := s.blk.m.set j v } (.okay 0#32)

/-- R87: the words read from `STATUS`, `DGLEN` and `ID`, and the fields of `STATUS` (R18) with the
reserved bits 0 (R69). -/
def Obligations.StatusWordRead : Prop :=
  ∀ s : State, ∃ v : Word, exec (.rd 0x04#8) s = answers s s.blk (.okay v) ∧
    v.toNat = s.blk.info.toNat * 2 ^ 16 + s.blk.cause.toNat * 2 ^ 8 +
      (if s.blk.dlen.toNat = 16 then 4 else 0) + (if s.blk.fpvalid then 2 else 0) +
      (if s.blk.fault then 1 else 0) ∧
    (∃ n : Word, exec (.rd 0x08#8) s = answers s s.blk (.okay n) ∧ n.toNat = s.blk.dlen.toNat) ∧
    exec (.rd 0x80#8) s = answers s s.blk (.okay 0x4D443501#32)

/-- R88: the word read from `DGWj` is bytes `4j` to `4j+3` of the buffer, low byte first. -/
def Obligations.DigestWordRead : Prop :=
  ∀ (s : State) (j : Fin 4), ∃ v : Word,
    exec (.rd (BitVec.ofNat 8 (0x20 + 4 * j.val))) s = answers s s.blk (.okay v) ∧
    v.toNat = s.blk.dg[4 * j.val + 3].toNat * 2 ^ 24 + s.blk.dg[4 * j.val + 2].toNat * 2 ^ 16 +
      s.blk.dg[4 * j.val + 1].toNat * 2 ^ 8 + s.blk.dg[4 * j.val].toNat

/-- R89, R90: the words read from `RNIB`, `PK`, `FP0` and `FP1`, whatever `FPVALID` is. -/
def Obligations.ResultRegisterRead : Prop :=
  ∀ s : State, ∃ a b c d : Word,
    exec (.rd 0x30#8) s = answers s s.blk (.okay a) ∧ a.toNat = s.blk.rnib.toNat ∧
    exec (.rd 0x34#8) s = answers s s.blk (.okay b) ∧ b.toNat = s.blk.pk.toNat ∧
    exec (.rd 0x38#8) s = answers s s.blk (.okay c) ∧
    c.toNat = s.blk.fpc[3].toNat * 2 ^ 24 + s.blk.fpc[2].toNat * 2 ^ 16 +
      s.blk.fpc[1].toNat * 2 ^ 8 + s.blk.fpc[0].toNat ∧
    exec (.rd 0x3C#8) s = answers s s.blk (.okay d) ∧ d.toNat = s.blk.fpc[4].toNat

/-- R47: a read of any address changes nothing, and repeated it returns the same response. -/
def Obligations.ReadsHaveNoSideEffect : Prop :=
  ∀ (s : State) (addr : Addr), ∃ r : Response,
    exec (.rd addr) s = answers s s.blk r ∧
    exec (.rd addr) (afterAnswer s s.blk r) = answers (afterAnswer s s.blk r) s.blk r

/-- R81, R82, R83: misaligned, unmapped and wrong-direction transactions answer AccessError and change
nothing. -/
def Obligations.BadAccessesAreRefused : Prop :=
  ∀ (s : State) (addr : Addr) (v : Word),
    (addr.toNat % 4 ≠ 0 →
      exec (.rd addr) s = answers s s.blk (.error .accessError) ∧
      exec (.wr addr v) s = answers s s.blk (.error .accessError)) ∧
    (addr.toNat % 4 = 0 → 0x84 ≤ addr.toNat →
      exec (.rd addr) s = answers s s.blk (.error .accessError) ∧
      exec (.wr addr v) s = answers s s.blk (.error .accessError)) ∧
    (addr.toNat ∈ [0x00, 0x0C] →
      exec (.rd addr) s = answers s s.blk (.error .accessError)) ∧
    (addr.toNat ∈ [0x04, 0x08, 0x20, 0x24, 0x28, 0x2C, 0x30, 0x34, 0x38, 0x3C, 0x80] →
      exec (.wr addr v) s = answers s s.blk (.error .accessError))

/-- R124: a write to `DGPUSH`, whatever `FAULT` is: refused when any of bits 31:8 is set; else the byte
goes to cell `DLEN` while there is one, `DLEN` counts up to 255, `FPVALID` is cleared, and nothing else
changes. -/
def Obligations.PushStoresCountsAndInvalidates : Prop :=
  ∀ (s : State) (v : Word),
    (256 ≤ v.toNat → exec (.wr 0x0C#8 v) s = answers s s.blk (.error .accessError)) ∧
    (v.toNat < 256 → ∃ (dg : Vector Byte 16) (dlen : Byte),
      exec (.wr 0x0C#8 v) s =
        answers s { s.blk with dg := dg, dlen := dlen, fpvalid := false } (.okay 0#32) ∧
      dlen.toNat = min (s.blk.dlen.toNat + 1) 255 ∧
      ∀ j : Fin 16, dg[j].toNat = if s.blk.dlen.toNat = j.val then v.toNat else s.blk.dg[j].toNat)

/-- R66, R72: writing a command's word to `CMD` is the command. -/
def Obligations.CmdWriteRunsCommand : Prop :=
  ∀ (s : State) (op : Opcode), exec (.wr 0x00#8 op.word) s = exec op.instr s

/-- R68, R194, R200: with no fault latched, a word that is no command raises IllegalCommand with
`INFO = wdata[7:0]`. -/
def Obligations.IllegalWordRaisesFault : Prop :=
  ∀ (s : State) (w : Word), s.blk.fault = false → 7 < w.toNat →
    exec (.wr 0x00#8 w) s =
      answers s
        { s.blk with fault := true, cause := 3#4, info := BitVec.ofNat 8 (w.toNat % 256) }
        (.error (.fault .illegalCommand))

/-- R203: while `FAULT = 1` a write to `CMD` of any word but CLRF and SRESET is refused and changes
nothing; every transaction to another address does what it does with any other value of `FAULT`, but for
what `STATUS` reads. -/
def Obligations.LockoutRefusesCommandsOnly : Prop :=
  (∀ (s : State) (w : Word), s.blk.fault = true → w.toNat ≠ 6 → w.toNat ≠ 7 →
    exec (.wr 0x00#8 w) s = answers s s.blk (.error .faultLocked)) ∧
  (∀ (s : State) (addr : Addr) (v : Word) (f : Bool), addr.toNat ≠ 0 → ∃ (b : Block) (r : Response),
    exec (.wr addr v) s = answers s b r ∧
    exec (.wr addr v) { s with blk := { s.blk with fault := f } } =
      answers s { b with fault := f } r) ∧
  (∀ (s : State) (addr : Addr) (f : Bool), addr.toNat ≠ 4 → ∃ r : Response,
    exec (.rd addr) s = answers s s.blk r ∧
    exec (.rd addr) { s with blk := { s.blk with fault := f } } =
      answers s { s.blk with fault := f } r)

/-! ### Commands -/

/-- R160: NOP, and its refusal under lockout. -/
def Obligations.NopAnswersOkayOnly : Prop :=
  ∀ s : State,
    (s.blk.fault = false → exec .nop s = answers s s.blk (.okay 0#32)) ∧
    (s.blk.fault = true → exec .nop s = answers s s.blk (.error .faultLocked))

/-- R101, R102: MDINIT, and its refusal under lockout. -/
def Obligations.MdinitLoadsInitialValue : Prop :=
  ∀ s : State,
    (s.blk.fault = false →
      exec .mdinit s =
        answers s
          { s.blk with h := #v[0x67452301#32, 0xEFCDAB89#32, 0x98BADCFE#32, 0x10325476#32] }
          (.okay 0#32)) ∧
    (s.blk.fault = true → exec .mdinit s = answers s s.blk (.error .faultLocked))

/-- R106 with R104, R105: any four sequences that start at `H` and obey the step equations for steps 0 to
63 give MDCOMP's result. The rotation is the library's, the functions and indices are those of the rule's
tables. MDCOMP is refused under lockout. -/
def Obligations.MdcompObeysStepEquations : Prop :=
  (∀ s : State, s.blk.fault = true → exec .mdcomp s = answers s s.blk (.error .faultLocked)) ∧
  ∀ (s : State) (a b c d : Nat → Word), s.blk.fault = false →
    a 0 = s.blk.h[0] → b 0 = s.blk.h[1] → c 0 = s.blk.h[2] → d 0 = s.blk.h[3] →
    (∀ i : Fin 64, a (i.val + 1) = d i ∧ d (i.val + 1) = c i ∧ c (i.val + 1) = b i ∧
      (i.val < 16 → b (i.val + 1) = b i +
        (a i + ((b i &&& c i) ||| (~~~(b i) &&& d i)) + kTable[i] +
          s.blk.m[i.val % 16]).rotateLeft ([7, 12, 17, 22][i.val % 4]!)) ∧
      (16 ≤ i.val → i.val < 32 → b (i.val + 1) = b i +
        (a i + ((d i &&& b i) ||| (~~~(d i) &&& c i)) + kTable[i] +
          s.blk.m[(5 * i.val + 1) % 16]).rotateLeft ([5, 9, 14, 20][i.val % 4]!)) ∧
      (32 ≤ i.val → i.val < 48 → b (i.val + 1) = b i +
        (a i + (b i ^^^ c i ^^^ d i) + kTable[i] +
          s.blk.m[(3 * i.val + 5) % 16]).rotateLeft ([4, 11, 16, 23][i.val % 4]!)) ∧
      (48 ≤ i.val → b (i.val + 1) = b i +
        (a i + (c i ^^^ (b i ||| ~~~(d i))) + kTable[i] +
          s.blk.m[(7 * i.val) % 16]).rotateLeft ([6, 10, 15, 21][i.val % 4]!))) →
    exec .mdcomp s =
      answers s
        { s.blk with
          h := #v[s.blk.h[0] + a 64, s.blk.h[1] + b 64, s.blk.h[2] + c 64, s.blk.h[3] + d 64] }
        (.okay 0#32)

/-- R106, R203: MDCOMP completes for any `H` and `M`, writes `H` only, its result is a function of `H` and
`M` alone, and it is refused under lockout. -/
def Obligations.MdcompWritesChainingValueOnly : Prop :=
  ∃ f : Vector Word 4 → Vector Word 16 → Vector Word 4, ∀ s : State,
    (s.blk.fault = false →
      exec .mdcomp s = answers s { s.blk with h := f s.blk.h s.blk.m } (.okay 0#32)) ∧
    (s.blk.fault = true → exec .mdcomp s = answers s s.blk (.error .faultLocked))

/-- R107: `rotl32` takes bit `p` of the operand to bit `(p + s) mod 32` of the result. -/
def Obligations.RotationMovesEveryBit : Prop :=
  ∀ (v : Word) (s p : Nat), 0 < s → s < 32 → p < 32 →
    (rotl32 v s).getLsbD ((p + s) % 32) = v.getLsbD p

/-- R104, R105: the rotation amounts and the message word of each step, written out. -/
def Obligations.StepScheduleWrittenOut : Prop :=
  ((List.finRange 64).map fun i => (messageWord i).val) =
    [0, 1, 2, 3, 4, 5, 6, 7, 8, 9, 10, 11, 12, 13, 14, 15,
     1, 6, 11, 0, 5, 10, 15, 4, 9, 14, 3, 8, 13, 2, 7, 12,
     5, 8, 11, 14, 1, 4, 7, 10, 13, 0, 3, 6, 9, 12, 15, 2,
     0, 7, 14, 5, 12, 3, 10, 1, 8, 15, 6, 13, 4, 11, 2, 9] ∧
  (List.finRange 64).map rotationAmount =
    [7, 12, 17, 22, 7, 12, 17, 22, 7, 12, 17, 22, 7, 12, 17, 22,
     5, 9, 14, 20, 5, 9, 14, 20, 5, 9, 14, 20, 5, 9, 14, 20,
     4, 11, 16, 23, 4, 11, 16, 23, 4, 11, 16, 23, 4, 11, 16, 23,
     6, 10, 15, 21, 6, 10, 15, 21, 6, 10, 15, 21, 6, 10, 15, 21]

/-- The example of R106: the padded empty message compressed from `IV`. -/
def Obligations.EmptyBlockCompressed : Prop :=
  ∀ s : State, s.blk.fault = false →
    s.blk.h = #v[0x67452301#32, 0xEFCDAB89#32, 0x98BADCFE#32, 0x10325476#32] →
    s.blk.m = (Vector.replicate 16 0#32).set 0 0x00000080#32 →
    exec .mdcomp s =
      answers s
        { s.blk with h := #v[0xD98C1DD4#32, 0x04B2008F#32, 0x980980E9#32, 0x7E42F8EC#32] }
        (.okay 0#32)

/-- R121: DGCLR, and its refusal under lockout. -/
def Obligations.DgclrEmptiesBuffer : Prop :=
  ∀ s : State,
    (s.blk.fault = false →
      exec .dgclr s =
        answers s
          { s.blk with dg := Vector.replicate 16 0#8, dlen := 0#8, fpvalid := false }
          (.okay 0#32)) ∧
    (s.blk.fault = true → exec .dgclr s = answers s s.blk (.error .faultLocked))

/-- R122, R123: DGLATCH serialises `H` low byte first, so that `DGWj` then reads `H[j]`, and its refusal
under lockout. -/
def Obligations.DglatchSerialisesChainingValue : Prop :=
  ∀ s : State,
    (s.blk.fault = false → ∃ dg : Vector Byte 16,
      exec .dglatch s =
        answers s { s.blk with dg := dg, dlen := 16#8, fpvalid := false } (.okay 0#32) ∧
      (∀ (j k : Fin 4), dg[4 * j.val + k.val].toNat = s.blk.h[j].toNat / 256 ^ k.val % 256) ∧
      (∀ (t : State) (j : Fin 4), exec .dglatch s = .next t →
        exec (.rd (BitVec.ofNat 8 (0x20 + 4 * j.val))) t = answers t t.blk (.okay s.blk.h[j]))) ∧
    (s.blk.fault = true → exec .dglatch s = answers s s.blk (.error .faultLocked))

/-- R162: CLRF clears the three fault fields and nothing else, whatever `FAULT` is. -/
def Obligations.ClrfClearsFaultFieldsOnly : Prop :=
  ∀ s : State,
    exec .clrf s =
      answers s { s.blk with fault := false, cause := 0#4, info := 0#8 } (.okay 0#32)

/-- R163, R26: SRESET gives every component its reset value, whatever the state; the block it leaves is the
one the hardware reset input leaves (R220). -/
def Obligations.SresetRestoresResetState : Prop :=
  ∀ s : State,
    exec .sreset s =
      answers s
        { h := #v[0x67452301#32, 0xEFCDAB89#32, 0x98BADCFE#32, 0x10325476#32]
          m := Vector.replicate 16 0#32, dg := Vector.replicate 16 0#8, dlen := 0#8
          rnib := 0#20, pk := 0#24, fpc := Vector.replicate 5 0#8
          fault := false, cause := 0#4, info := 0#8, fpvalid := false }
        (.okay 0#32) ∧
    s.hardwareReset.blk = State.reset.blk ∧ exec .sreset s = answers s State.reset.blk (.okay 0#32)

/-! ### FPENC -/

/-- R131 steps 2 to 6, R137 to R148 in closed form: with a 16-byte digest whose byte 3 is below `0xF0`,
FPENC completes, and its four results are those of the closed forms; nothing else changes. -/
def Obligations.FpencResultInClosedForm : Prop :=
  ∀ s : State, s.blk.fault = false → s.blk.dlen = 16#8 → s.blk.dg[3].toNat < 0xF0 →
    let r0 := closedNibble s.blk.dg 14 0 2
    let r1 := closedNibble s.blk.dg 3 13 2
    let r2 := closedNibble s.blk.dg 6 16 5
    let r3 := closedNibble s.blk.dg 8 11 4
    let r4 := closedNibble s.blk.dg 2 5 3
    let p0 := firstPacked Config.packTail r0
    exec .fpenc s =
      answers s
        { s.blk with
          rnib := BitVec.ofNat 20 (r0 + 16 * r1 + 256 * r2 + 4096 * r3 + 65536 * r4)
          pk := BitVec.ofNat 24 (65536 * p0 + 256 * (16 * r1 + r2) + (16 * r3 + r4))
          fpc := #v[hexCode p0, hexCode r1, hexCode r2, hexCode r3, hexCode r4]
          fpvalid := true }
        (.okay 0#32)

/-- R132, R137, R191: FPENC raises InvalidDigestLength for every other length, IndexOutOfRange with
`INFO = 0x5F` for every digest whose byte 3 is `0xF0` or more, writes no result then, and is refused under
lockout. -/
def Obligations.FpencFaultsByLengthThenIndex : Prop :=
  ∀ s : State,
    (s.blk.fault = false → s.blk.dlen ≠ 16#8 →
      exec .fpenc s =
        answers s { s.blk with fault := true, cause := 1#4, info := s.blk.dlen }
          (.error (.fault .invalidDigestLength))) ∧
    (s.blk.fault = false → s.blk.dlen = 16#8 → 0xF0 ≤ s.blk.dg[3].toNat →
      exec .fpenc s =
        answers s { s.blk with fault := true, cause := 2#4, info := 0x5F#8 }
          (.error (.fault .indexOutOfRange))) ∧
    (s.blk.fault = true → exec .fpenc s = answers s s.blk (.error .faultLocked))

/-- R150: FPENC's response and results depend on the digest only through its five nibbles read as `n` and,
for each iteration, the nibble `t + 1` it selects. -/
def Obligations.FpencDependsOnTenNibbles : Prop :=
  ∀ s1 s2 : State, s1.blk.fault = false → s2.blk.fault = false →
    s1.blk.dlen = 16#8 → s2.blk.dlen = 16#8 →
    (∀ k ∈ [14, 3, 6, 8, 2], flatNibble s1.blk.dg k = flatNibble s2.blk.dg k) →
    (∀ p ∈ [(14, 0), (3, 13), (6, 16), (8, 11), (2, 5)],
      flatNibble s1.blk.dg (p.2 + flatNibble s1.blk.dg p.1 + 1) =
        flatNibble s2.blk.dg (p.2 + flatNibble s1.blk.dg p.1 + 1)) →
    ∃ (b1 b2 : Block) (r : Response),
      exec .fpenc s1 = answers s1 b1 r ∧ exec .fpenc s2 = answers s2 b2 r ∧
      (r = .okay 0#32 ∨ r = .error (.fault .indexOutOfRange)) ∧
      (r = .okay 0#32 → b1.rnib = b2.rnib ∧ b1.pk = b2.pk ∧ b1.fpc = b2.fpc)

/-- R133, R135: `readCombined` is the two nibbles `t` and `t + 1` of the flat sequence, and `readNibble` is
one of them. -/
def Obligations.CombinedReadIsTwoNibbles : Prop :=
  ∀ dg : Vector Byte 16,
    (∀ (k : Nat) (hk : k < 32), (readNibble dg k hk).toNat = flatNibble dg k) ∧
    (∀ (t : Half) (ht : inRange t),
      (readCombined dg t ht).toNat =
        flatNibble dg t.toNat * 16 + flatNibble dg (t.toNat + 1)) ∧
    (∀ t : Half, inRange t ↔ t.toNat + 1 ≤ 31)

/-- R142, R143: the packed bytes under each setting of `PACK_TAIL`. -/
def Obligations.PackedBytesInClosedForm : Prop :=
  ∀ r : Vector Nibble 5,
    pack .discard r = #v[0x00#8, r[1] ++ r[2], r[3] ++ r[4]] ∧
    pack .flush r = #v[0#4 ++ r[0], r[1] ++ r[2], r[3] ++ r[4]]

/-- R144, R145, R146: character `k` of the six is the digit of nibble `k` of `PK` from the top, the
Fingerprint is characters 1 to 5, and each is the ASCII code of a lowercase hexadecimal digit. -/
def Obligations.CharactersRenderPackedBytes : Prop :=
  ∀ p : Vector Byte 3,
    (∀ k : Fin 6, (hex6 p)[k] =
      hexCode ((pkOf p).toNat / 16 ^ (5 - k.val) % 16)) ∧
    (∀ k : Fin 5, (fingerprint p)[k] = (hex6 p)[k.val + 1] ∧ IsHexCode (fingerprint p)[k])

/-! ### Faults and refusals over the whole machine -/

/-- R200: in every step that answers a fault, no fault was latched, the transaction was a write to `CMD`,
`FAULT`, `CAUSE` and `INFO` are written and nothing else changes. -/
def Obligations.FaultEntryIsPrecise : Prop :=
  ∀ (s t : State) (c : FaultCause), step s = .next t →
    t.responses = .error (.fault c) :: s.responses →
    s.blk.fault = false ∧
    (∃ w : TWord, s.pending.head? = some (.transaction w) ∧ tWe w = true ∧ tAddr w = 0x00#8) ∧
    ∃ v : Byte, t.blk =
      { s.blk with
        fault := true
        cause :=
          if c = .invalidDigestLength then 1#4 else if c = .indexOutOfRange then 2#4 else 3#4
        info := v }

/-- R190: a refused transaction changes no state of the block at all. -/
def Obligations.RefusalChangesNothing : Prop :=
  ∀ s t : State, step s = .next t →
    t.responses = .error .accessError :: s.responses ∨
      t.responses = .error .faultLocked :: s.responses →
    t.blk = s.blk

/-- R18, R200, R204: a latched fault keeps `FAULT`, `CAUSE` and `INFO` through every step but CLRF, SRESET
and the hardware reset; so the latch holds the first fault. -/
def Obligations.LatchedFaultIsHeld : Prop :=
  ∀ s t : State, s.blk.fault = true → step s = .next t →
    ¬ NextWritesCmd s 6#32 → ¬ NextWritesCmd s 7#32 → ¬ NextIsReset s →
    t.blk.fault = true ∧ t.blk.cause = s.blk.cause ∧ t.blk.info = s.blk.info

/-- R28: which transaction may change which component. -/
def Obligations.ComponentsChangeOnlyByTheirWriters : Prop :=
  ∀ (s t : State) (w : TWord), s.pending.head? = some (.transaction w) → step s = .next t →
    (t.blk ≠ s.blk → tWe w = true) ∧
    (t.blk.h ≠ s.blk.h →
      (0x10 ≤ (tAddr w).toNat ∧ (tAddr w).toNat ≤ 0x1C) ∨
      ((tAddr w).toNat = 0x00 ∧ (tData w).toNat ∈ [1, 2, 7])) ∧
    (t.blk.m ≠ s.blk.m →
      (0x40 ≤ (tAddr w).toNat ∧ (tAddr w).toNat ≤ 0x7C) ∨
      ((tAddr w).toNat = 0x00 ∧ (tData w).toNat = 7)) ∧
    (t.blk.dg ≠ s.blk.dg ∨ t.blk.dlen ≠ s.blk.dlen →
      ((tAddr w).toNat = 0x0C ∧ (tData w).toNat < 256) ∨
      ((tAddr w).toNat = 0x00 ∧ (tData w).toNat ∈ [3, 4, 7])) ∧
    (t.blk.rnib ≠ s.blk.rnib ∨ t.blk.pk ≠ s.blk.pk ∨ t.blk.fpc ≠ s.blk.fpc →
      (tAddr w).toNat = 0x00 ∧ (tData w).toNat ∈ [5, 7]) ∧
    (t.blk.fault ≠ s.blk.fault ∨ t.blk.cause ≠ s.blk.cause ∨ t.blk.info ≠ s.blk.info →
      (tAddr w).toNat = 0x00 ∧ 5 ≤ (tData w).toNat)

/-- R20: `FPVALID` is set only by FPENC, and cleared by every step that changes `DG` or `DLEN` and by no
other kind of step than a push, DGLATCH, DGCLR and reset. -/
def Obligations.ResultValidityTracksBuffer : Prop :=
  ∀ s t : State, step s = .next t →
    (s.blk.fpvalid = false → t.blk.fpvalid = true → NextWritesCmd s 5#32) ∧
    (t.blk.dg ≠ s.blk.dg ∨ t.blk.dlen ≠ s.blk.dlen → t.blk.fpvalid = false) ∧
    (s.blk.fpvalid = true → t.blk.fpvalid = false →
      (∃ v : Byte, s.pending.head? = some (.transaction (mkT true 0x0C#8 (v.setWidth 32)))) ∨
      NextWritesCmd s 3#32 ∨ NextWritesCmd s 4#32 ∨ NextWritesCmd s 7#32 ∨ NextIsReset s)

/-- R20, second consequence: where the invariant holds, an FPENC that faults finds `FPVALID = 0`. -/
def Obligations.FaultingFpencFindsResultsInvalid : Prop :=
  ∀ (s t : State) (c : FaultCause), StateInv s → exec .fpenc s = .next t →
    t.responses = .error (.fault c) :: s.responses → s.blk.fpvalid = false

/-! ### Reset and the invariant -/

/-- R26, R220: the reset values, component by component, of the machine's reset state, after the hardware
reset input and after SRESET. -/
def Obligations.ResetValues : Prop :=
  ∃ b : Block,
    b = { h := #v[0x67452301#32, 0xEFCDAB89#32, 0x98BADCFE#32, 0x10325476#32]
          m := Vector.replicate 16 0#32, dg := Vector.replicate 16 0#8, dlen := 0#8
          rnib := 0#20, pk := 0#24, fpc := Vector.replicate 5 0#8
          fault := false, cause := 0#4, info := 0#8, fpvalid := false } ∧
    State.reset.blk = b ∧
    (∀ s t : State, NextIsReset s → step s = .next t → t.blk = b) ∧
    (∀ s t : State, NextWritesCmd s 7#32 → step s = .next t → t.blk = b)

/-- The invariant holds right after reset, whatever the host has issued. -/
def Obligations.InvariantAtReset : Prop :=
  ∀ (inputs : List Input) (log : List Response),
    StateInv { State.reset with pending := inputs, responses := log }

/-- R14, R17, R19, R20: the invariant of the block is kept by every step. -/
def Obligations.StepKeepsInvariant : Prop :=
  ∀ s t : State, StateInv s → step s = .next t → StateInv t

/-! ### Host sequences -/

/-- R172: the padded message is the message, `0x80`, fewer than 64 zeros and the eight length bytes, and
its length is `64 * ((L + 8) / 64 + 1)`. -/
def Obligations.PaddedMessageShape : Prop :=
  ∀ msg : List Byte,
    (pad msg).length = 64 * ((msg.length + 8) / 64 + 1) ∧
    (∃ zeros : Nat, zeros < 64 ∧ (msg.length + 1 + zeros) % 64 = 56 ∧
      pad msg = msg ++ [0x80#8] ++ List.replicate zeros 0#8 ++
        (List.range 8).map fun k => BitVec.ofNat 8 (8 * msg.length % 2 ^ 64 / 256 ^ k))

/-- R72, R106: sixteen writes of a 64-byte block and MDCOMP compress exactly that block, whatever `M` held
before. -/
def Obligations.BlockLoadedAndCompressed : Prop :=
  ∀ (s : State) (bytes : List Byte), bytes.length = 64 → s.blk.fault = false → s.pending = [] →
    let ws := assemble [.ldblkb bytes, .command .mdcomp]
    ws.length = 17 ∧
    ∃ t : State, RunsTo 17 (s.issue ws) t ∧ t.pending = [] ∧
      t.blk = { s.blk with m := blockAt bytes 0, h := compress s.blk.h (blockAt bytes 0) } ∧
      (∀ (j : Fin 16) (k : Fin 4),
        t.blk.m[j].toNat / 256 ^ k.val % 256 = (bytes[4 * j.val + k.val]!).toNat)

/-- R171: for every byte sequence, MDINIT and the loop over the blocks of the padded message leave in `H`
the fold of the compression function from `IV`, with one MDCOMP per block; the digest buffer and the
results are untouched. -/
def Obligations.HostSequenceComputesMd5 : Prop :=
  ∀ (s : State) (msg : List Byte), s.blk.fault = false → s.pending = [] →
    let ws := assemble (md5Listing msg)
    ws.length = 1 + 17 * ((msg.length + 8) / 64 + 1) ∧
    ∃ t : State, RunsTo ws.length (s.issue ws) t ∧ t.pending = [] ∧
      t.blk = { s.blk with h := md5 msg, m := t.blk.m }

/-- R43 (b), R173: the digest of the empty byte sequence. -/
def Obligations.EmptyMessageDigestBytes : Prop :=
  extractDigest [] = emptyMessageDigest

/-- R175, R124, R125: DGCLR and a push of each byte of a sequence of any length leave the first sixteen
bytes in the buffer, zeros behind them, the length saturated at 255, and the result not valid. -/
def Obligations.PushedBytesFillBuffer : Prop :=
  ∀ (s : State) (bytes : List Byte), s.blk.fault = false → s.pending = [] →
    let ws := assemble [.pushdg bytes]
    ∃ t : State, RunsTo (1 + bytes.length) (s.issue ws) t ∧ t.pending = [] ∧
      t.blk = { s.blk with dg := t.blk.dg, dlen := t.blk.dlen, fpvalid := false } ∧
      t.blk.dlen.toNat = min bytes.length 255 ∧
      (∀ j : Fin 16, t.blk.dg[j] = (bytes[j.val]?).getD 0#8)

/-- R174: latch, encode and the two reads return the Fingerprint of the digest in `H`, when its byte 3 is
below `0xF0`. -/
def Obligations.HostSequenceReadsFingerprint : Prop :=
  ∀ s : State, s.blk.fault = false → s.pending = [] →
    s.blk.h[0].toNat / 256 ^ 3 < 0xF0 →
    ∃ (t : State) (a b : Word) (e : Encoding),
      RunsTo 4 (s.issue (assemble fingerprintListing)) t ∧ t.pending = [] ∧
      t.responses = .okay b :: .okay a :: .okay 0#32 :: .okay 0#32 :: s.responses ∧
      encodeDigest Config.packTail (digestOf s.blk.h) = .ok e ∧ charactersOf a b = e.fpc ∧
      t.blk = { s.blk with
        dg := digestOf s.blk.h, dlen := 16#8, rnib := e.rnib, pk := e.pk, fpc := e.fpc,
        fpvalid := true }

/-- R178: characters `2j` and `2j + 1` of the rendering of the whole digest are the digits of byte `j`,
high nibble first. -/
def Obligations.WholeDigestRendering : Prop :=
  ∀ (dg : Vector Byte 16) (j : Fin 16),
    (hex32 dg)[2 * j.val] = hexCode (dg[j].toNat / 16) ∧
    (hex32 dg)[2 * j.val + 1] = hexCode (dg[j].toNat % 16)

/-- R174: the host latches, encodes and looks at FPENC's response. On `OKAY` it reads the characters and
returns the Fingerprint; on an error it issues nothing more and returns the error (R177). A host that finds
a fault latched fails with FaultLocked and changes nothing (R203). With no fault latched before, the test of
`STATUS` ends the same way: the same block, and the same Fingerprint or error. That a host which tests
`STATUS` takes its error from `CAUSE` is the model's choice (log entry 12, DEDUCED from R177): R174 does not
say how it learns the error. With a fault latched before, that host would report the latched `CAUSE` and not
FaultLocked, so its clause is for `FAULT = 0` only. -/
def Obligations.HostFingerprintOrError : Prop :=
  ∀ s : State, s.pending = [] →
    let latched : Block :=
      { s.blk with dg := digestOf s.blk.h, dlen := 16#8, fpvalid := false }
    (s.blk.fault = false → s.blk.h[0].toNat / 256 ^ 3 < 0xF0 →
      ∃ (t : State) (e : Encoding) (a b : Word),
        s.encodeLatched = some (t, .ok e.fpc) ∧
        encodeDigest Config.packTail (digestOf s.blk.h) = .ok e ∧ t.pending = [] ∧
        t.responses = .okay b :: .okay a :: .okay 0#32 :: .okay 0#32 :: s.responses ∧
        t.blk = { latched with rnib := e.rnib, pk := e.pk, fpc := e.fpc, fpvalid := true }) ∧
    (s.blk.fault = false → 0xF0 ≤ s.blk.h[0].toNat / 256 ^ 3 →
      s.encodeLatched =
        some ({ blk := { latched with fault := true, cause := 2#4, info := 0x5F#8 }
                pending := []
                responses := .error (.fault .indexOutOfRange) :: .okay 0#32 :: s.responses },
          .error (.fault .indexOutOfRange))) ∧
    (s.blk.fault = false → ∃ (t u : State) (x : FingerprintResult),
      s.encodeLatched = some (t, x) ∧ s.encodeLatchedByStatus = some (u, x.mapError some) ∧
      u.blk = t.blk) ∧
    (s.blk.fault = true →
      s.encodeLatched =
        some ({ s with responses := .error .faultLocked :: .error .faultLocked :: s.responses },
          .error .faultLocked))

/-- R175: the host pushes a byte sequence of any length and goes on with FPENC and its response. Sixteen
bytes give the Fingerprint of that digest, or IndexOutOfRange when byte 3 is `0xF0` or more; every other
length gives InvalidDigestLength with `INFO` the length, 255 at most, and no result is read or written. -/
def Obligations.HostPushedFingerprintOrError : Prop :=
  ∀ s : State, s.pending = [] → s.blk.fault = false →
    (∀ dg : Vector Byte 16, dg[3].toNat < 0xF0 → ∃ (t : State) (e : Encoding),
      s.encodePushed dg.toList = some (t, .ok e.fpc) ∧ t.pending = [] ∧
      encodeDigest Config.packTail dg = .ok e ∧
      t.blk = { s.blk with
        dg := dg, dlen := 16#8, rnib := e.rnib, pk := e.pk, fpc := e.fpc, fpvalid := true }) ∧
    (∀ dg : Vector Byte 16, 0xF0 ≤ dg[3].toNat → ∃ t : State,
      s.encodePushed dg.toList = some (t, .error (.fault .indexOutOfRange)) ∧ t.pending = [] ∧
      t.blk = { s.blk with
        dg := dg, dlen := 16#8, fpvalid := false, fault := true, cause := 2#4, info := 0x5F#8 }) ∧
    (∀ bytes : List Byte, bytes.length ≠ 16 → ∃ (t : State) (n : Byte),
      s.encodePushed bytes = some (t, .error (.fault .invalidDigestLength)) ∧ t.pending = [] ∧
      n.toNat = min bytes.length 255 ∧
      t.blk = { s.blk with
        dg := t.blk.dg, dlen := n, fpvalid := false, fault := true, cause := 1#4, info := n })

end
end

