-- ==== Sys2Proof/Laws/State.lean ====
section
/-! SUPPORT. One lemma per field per update of the state, each true by rfl and a simp lemma, so that no
later proof unfolds a record update. -/

namespace Sys2Proof.Machine

/-! ### raise -/

@[simp] theorem raise_h (b : Block) (c : FaultCause) (v : Byte) :
    ((b.raise c v).1).h = b.h := rfl
@[simp] theorem raise_m (b : Block) (c : FaultCause) (v : Byte) :
    ((b.raise c v).1).m = b.m := rfl
@[simp] theorem raise_dg (b : Block) (c : FaultCause) (v : Byte) :
    ((b.raise c v).1).dg = b.dg := rfl
@[simp] theorem raise_dlen (b : Block) (c : FaultCause) (v : Byte) :
    ((b.raise c v).1).dlen = b.dlen := rfl
@[simp] theorem raise_rnib (b : Block) (c : FaultCause) (v : Byte) :
    ((b.raise c v).1).rnib = b.rnib := rfl
@[simp] theorem raise_pk (b : Block) (c : FaultCause) (v : Byte) :
    ((b.raise c v).1).pk = b.pk := rfl
@[simp] theorem raise_fpc (b : Block) (c : FaultCause) (v : Byte) :
    ((b.raise c v).1).fpc = b.fpc := rfl
@[simp] theorem raise_fault (b : Block) (c : FaultCause) (v : Byte) :
    ((b.raise c v).1).fault = true := rfl
@[simp] theorem raise_cause (b : Block) (c : FaultCause) (v : Byte) :
    ((b.raise c v).1).cause = c.code := rfl
@[simp] theorem raise_info (b : Block) (c : FaultCause) (v : Byte) :
    ((b.raise c v).1).info = v := rfl
@[simp] theorem raise_fpvalid (b : Block) (c : FaultCause) (v : Byte) :
    ((b.raise c v).1).fpvalid = b.fpvalid := rfl
@[simp] theorem raise_response (b : Block) (c : FaultCause) (v : Byte) :
    (b.raise c v).2 = .error (.fault c) := rfl

/-! ### clearFault -/

@[simp] theorem clearFault_h (b : Block) :
    (b.clearFault).h = b.h := rfl
@[simp] theorem clearFault_m (b : Block) :
    (b.clearFault).m = b.m := rfl
@[simp] theorem clearFault_dg (b : Block) :
    (b.clearFault).dg = b.dg := rfl
@[simp] theorem clearFault_dlen (b : Block) :
    (b.clearFault).dlen = b.dlen := rfl
@[simp] theorem clearFault_rnib (b : Block) :
    (b.clearFault).rnib = b.rnib := rfl
@[simp] theorem clearFault_pk (b : Block) :
    (b.clearFault).pk = b.pk := rfl
@[simp] theorem clearFault_fpc (b : Block) :
    (b.clearFault).fpc = b.fpc := rfl
@[simp] theorem clearFault_fault (b : Block) :
    (b.clearFault).fault = false := rfl
@[simp] theorem clearFault_cause (b : Block) :
    (b.clearFault).cause = 0#4 := rfl
@[simp] theorem clearFault_info (b : Block) :
    (b.clearFault).info = 0#8 := rfl
@[simp] theorem clearFault_fpvalid (b : Block) :
    (b.clearFault).fpvalid = b.fpvalid := rfl

/-! ### done -/

@[simp] theorem done_h (b : Block) :
    (b.done.1).h = b.h := rfl
@[simp] theorem done_m (b : Block) :
    (b.done.1).m = b.m := rfl
@[simp] theorem done_dg (b : Block) :
    (b.done.1).dg = b.dg := rfl
@[simp] theorem done_dlen (b : Block) :
    (b.done.1).dlen = b.dlen := rfl
@[simp] theorem done_rnib (b : Block) :
    (b.done.1).rnib = b.rnib := rfl
@[simp] theorem done_pk (b : Block) :
    (b.done.1).pk = b.pk := rfl
@[simp] theorem done_fpc (b : Block) :
    (b.done.1).fpc = b.fpc := rfl
@[simp] theorem done_fault (b : Block) :
    (b.done.1).fault = b.fault := rfl
@[simp] theorem done_cause (b : Block) :
    (b.done.1).cause = b.cause := rfl
@[simp] theorem done_info (b : Block) :
    (b.done.1).info = b.info := rfl
@[simp] theorem done_fpvalid (b : Block) :
    (b.done.1).fpvalid = b.fpvalid := rfl
@[simp] theorem done_response (b : Block) :
    b.done.2 = .okay 0#32 := rfl

/-! ### accessError -/

@[simp] theorem accessError_h (b : Block) :
    (b.accessError.1).h = b.h := rfl
@[simp] theorem accessError_m (b : Block) :
    (b.accessError.1).m = b.m := rfl
@[simp] theorem accessError_dg (b : Block) :
    (b.accessError.1).dg = b.dg := rfl
@[simp] theorem accessError_dlen (b : Block) :
    (b.accessError.1).dlen = b.dlen := rfl
@[simp] theorem accessError_rnib (b : Block) :
    (b.accessError.1).rnib = b.rnib := rfl
@[simp] theorem accessError_pk (b : Block) :
    (b.accessError.1).pk = b.pk := rfl
@[simp] theorem accessError_fpc (b : Block) :
    (b.accessError.1).fpc = b.fpc := rfl
@[simp] theorem accessError_fault (b : Block) :
    (b.accessError.1).fault = b.fault := rfl
@[simp] theorem accessError_cause (b : Block) :
    (b.accessError.1).cause = b.cause := rfl
@[simp] theorem accessError_info (b : Block) :
    (b.accessError.1).info = b.info := rfl
@[simp] theorem accessError_fpvalid (b : Block) :
    (b.accessError.1).fpvalid = b.fpvalid := rfl
@[simp] theorem accessError_response (b : Block) :
    b.accessError.2 = .error .accessError := rfl

@[simp] theorem done_block (b : Block) : b.done.1 = b := rfl
@[simp] theorem accessError_block (b : Block) : b.accessError.1 = b := rfl

/-! ### nop -/

@[simp] theorem nop_h (b : Block) :
    ((nop b).1).h = b.h := rfl
@[simp] theorem nop_m (b : Block) :
    ((nop b).1).m = b.m := rfl
@[simp] theorem nop_dg (b : Block) :
    ((nop b).1).dg = b.dg := rfl
@[simp] theorem nop_dlen (b : Block) :
    ((nop b).1).dlen = b.dlen := rfl
@[simp] theorem nop_rnib (b : Block) :
    ((nop b).1).rnib = b.rnib := rfl
@[simp] theorem nop_pk (b : Block) :
    ((nop b).1).pk = b.pk := rfl
@[simp] theorem nop_fpc (b : Block) :
    ((nop b).1).fpc = b.fpc := rfl
@[simp] theorem nop_fault (b : Block) :
    ((nop b).1).fault = b.fault := rfl
@[simp] theorem nop_cause (b : Block) :
    ((nop b).1).cause = b.cause := rfl
@[simp] theorem nop_info (b : Block) :
    ((nop b).1).info = b.info := rfl
@[simp] theorem nop_fpvalid (b : Block) :
    ((nop b).1).fpvalid = b.fpvalid := rfl
@[simp] theorem nop_response (b : Block) :
    (nop b).2 = .okay 0#32 := rfl

/-! ### mdinit -/

@[simp] theorem mdinit_h (b : Block) :
    ((mdinit b).1).h = iv := rfl
@[simp] theorem mdinit_m (b : Block) :
    ((mdinit b).1).m = b.m := rfl
@[simp] theorem mdinit_dg (b : Block) :
    ((mdinit b).1).dg = b.dg := rfl
@[simp] theorem mdinit_dlen (b : Block) :
    ((mdinit b).1).dlen = b.dlen := rfl
@[simp] theorem mdinit_rnib (b : Block) :
    ((mdinit b).1).rnib = b.rnib := rfl
@[simp] theorem mdinit_pk (b : Block) :
    ((mdinit b).1).pk = b.pk := rfl
@[simp] theorem mdinit_fpc (b : Block) :
    ((mdinit b).1).fpc = b.fpc := rfl
@[simp] theorem mdinit_fault (b : Block) :
    ((mdinit b).1).fault = b.fault := rfl
@[simp] theorem mdinit_cause (b : Block) :
    ((mdinit b).1).cause = b.cause := rfl
@[simp] theorem mdinit_info (b : Block) :
    ((mdinit b).1).info = b.info := rfl
@[simp] theorem mdinit_fpvalid (b : Block) :
    ((mdinit b).1).fpvalid = b.fpvalid := rfl
@[simp] theorem mdinit_response (b : Block) :
    (mdinit b).2 = .okay 0#32 := rfl

/-! ### mdcomp -/

@[simp] theorem mdcomp_h (b : Block) :
    ((mdcomp b).1).h = compress b.h b.m := rfl
@[simp] theorem mdcomp_m (b : Block) :
    ((mdcomp b).1).m = b.m := rfl
@[simp] theorem mdcomp_dg (b : Block) :
    ((mdcomp b).1).dg = b.dg := rfl
@[simp] theorem mdcomp_dlen (b : Block) :
    ((mdcomp b).1).dlen = b.dlen := rfl
@[simp] theorem mdcomp_rnib (b : Block) :
    ((mdcomp b).1).rnib = b.rnib := rfl
@[simp] theorem mdcomp_pk (b : Block) :
    ((mdcomp b).1).pk = b.pk := rfl
@[simp] theorem mdcomp_fpc (b : Block) :
    ((mdcomp b).1).fpc = b.fpc := rfl
@[simp] theorem mdcomp_fault (b : Block) :
    ((mdcomp b).1).fault = b.fault := rfl
@[simp] theorem mdcomp_cause (b : Block) :
    ((mdcomp b).1).cause = b.cause := rfl
@[simp] theorem mdcomp_info (b : Block) :
    ((mdcomp b).1).info = b.info := rfl
@[simp] theorem mdcomp_fpvalid (b : Block) :
    ((mdcomp b).1).fpvalid = b.fpvalid := rfl
@[simp] theorem mdcomp_response (b : Block) :
    (mdcomp b).2 = .okay 0#32 := rfl

/-! ### dgclr -/

@[simp] theorem dgclr_h (b : Block) :
    ((dgclr b).1).h = b.h := rfl
@[simp] theorem dgclr_m (b : Block) :
    ((dgclr b).1).m = b.m := rfl
@[simp] theorem dgclr_dg (b : Block) :
    ((dgclr b).1).dg = Vector.replicate 16 0#8 := rfl
@[simp] theorem dgclr_dlen (b : Block) :
    ((dgclr b).1).dlen = 0#8 := rfl
@[simp] theorem dgclr_rnib (b : Block) :
    ((dgclr b).1).rnib = b.rnib := rfl
@[simp] theorem dgclr_pk (b : Block) :
    ((dgclr b).1).pk = b.pk := rfl
@[simp] theorem dgclr_fpc (b : Block) :
    ((dgclr b).1).fpc = b.fpc := rfl
@[simp] theorem dgclr_fault (b : Block) :
    ((dgclr b).1).fault = b.fault := rfl
@[simp] theorem dgclr_cause (b : Block) :
    ((dgclr b).1).cause = b.cause := rfl
@[simp] theorem dgclr_info (b : Block) :
    ((dgclr b).1).info = b.info := rfl
@[simp] theorem dgclr_fpvalid (b : Block) :
    ((dgclr b).1).fpvalid = false := rfl
@[simp] theorem dgclr_response (b : Block) :
    (dgclr b).2 = .okay 0#32 := rfl

/-! ### dglatch -/

@[simp] theorem dglatch_h (b : Block) :
    ((dglatch b).1).h = b.h := rfl
@[simp] theorem dglatch_m (b : Block) :
    ((dglatch b).1).m = b.m := rfl
@[simp] theorem dglatch_dg (b : Block) :
    ((dglatch b).1).dg = digestOf b.h := rfl
@[simp] theorem dglatch_dlen (b : Block) :
    ((dglatch b).1).dlen = 16#8 := rfl
@[simp] theorem dglatch_rnib (b : Block) :
    ((dglatch b).1).rnib = b.rnib := rfl
@[simp] theorem dglatch_pk (b : Block) :
    ((dglatch b).1).pk = b.pk := rfl
@[simp] theorem dglatch_fpc (b : Block) :
    ((dglatch b).1).fpc = b.fpc := rfl
@[simp] theorem dglatch_fault (b : Block) :
    ((dglatch b).1).fault = b.fault := rfl
@[simp] theorem dglatch_cause (b : Block) :
    ((dglatch b).1).cause = b.cause := rfl
@[simp] theorem dglatch_info (b : Block) :
    ((dglatch b).1).info = b.info := rfl
@[simp] theorem dglatch_fpvalid (b : Block) :
    ((dglatch b).1).fpvalid = false := rfl
@[simp] theorem dglatch_response (b : Block) :
    (dglatch b).2 = .okay 0#32 := rfl

/-! ### pushDigest -/

@[simp] theorem pushDigest_h (b : Block) (v : Byte) :
    ((pushDigest b v).1).h = b.h := rfl
@[simp] theorem pushDigest_m (b : Block) (v : Byte) :
    ((pushDigest b v).1).m = b.m := rfl
@[simp] theorem pushDigest_dg (b : Block) (v : Byte) :
    ((pushDigest b v).1).dg = if h : b.dlen.toNat < 16 then b.dg.set b.dlen.toNat v h else b.dg := rfl
@[simp] theorem pushDigest_dlen (b : Block) (v : Byte) :
    ((pushDigest b v).1).dlen = if b.dlen.toNat < 255 then b.dlen + 1#8 else b.dlen := rfl
@[simp] theorem pushDigest_rnib (b : Block) (v : Byte) :
    ((pushDigest b v).1).rnib = b.rnib := rfl
@[simp] theorem pushDigest_pk (b : Block) (v : Byte) :
    ((pushDigest b v).1).pk = b.pk := rfl
@[simp] theorem pushDigest_fpc (b : Block) (v : Byte) :
    ((pushDigest b v).1).fpc = b.fpc := rfl
@[simp] theorem pushDigest_fault (b : Block) (v : Byte) :
    ((pushDigest b v).1).fault = b.fault := rfl
@[simp] theorem pushDigest_cause (b : Block) (v : Byte) :
    ((pushDigest b v).1).cause = b.cause := rfl
@[simp] theorem pushDigest_info (b : Block) (v : Byte) :
    ((pushDigest b v).1).info = b.info := rfl
@[simp] theorem pushDigest_fpvalid (b : Block) (v : Byte) :
    ((pushDigest b v).1).fpvalid = false := rfl
@[simp] theorem pushDigest_response (b : Block) (v : Byte) :
    (pushDigest b v).2 = .okay 0#32 := rfl

/-! ### clrf -/

@[simp] theorem clrf_h (b : Block) :
    ((clrf b).1).h = b.h := rfl
@[simp] theorem clrf_m (b : Block) :
    ((clrf b).1).m = b.m := rfl
@[simp] theorem clrf_dg (b : Block) :
    ((clrf b).1).dg = b.dg := rfl
@[simp] theorem clrf_dlen (b : Block) :
    ((clrf b).1).dlen = b.dlen := rfl
@[simp] theorem clrf_rnib (b : Block) :
    ((clrf b).1).rnib = b.rnib := rfl
@[simp] theorem clrf_pk (b : Block) :
    ((clrf b).1).pk = b.pk := rfl
@[simp] theorem clrf_fpc (b : Block) :
    ((clrf b).1).fpc = b.fpc := rfl
@[simp] theorem clrf_fault (b : Block) :
    ((clrf b).1).fault = false := rfl
@[simp] theorem clrf_cause (b : Block) :
    ((clrf b).1).cause = 0#4 := rfl
@[simp] theorem clrf_info (b : Block) :
    ((clrf b).1).info = 0#8 := rfl
@[simp] theorem clrf_fpvalid (b : Block) :
    ((clrf b).1).fpvalid = b.fpvalid := rfl
@[simp] theorem clrf_response (b : Block) :
    (clrf b).2 = .okay 0#32 := rfl

/-! ### reset -/

@[simp] theorem reset_h : Block.reset.h = iv := rfl
@[simp] theorem reset_m : Block.reset.m = Vector.replicate 16 0#32 := rfl
@[simp] theorem reset_dg : Block.reset.dg = Vector.replicate 16 0#8 := rfl
@[simp] theorem reset_dlen : Block.reset.dlen = 0#8 := rfl
@[simp] theorem reset_rnib : Block.reset.rnib = 0#20 := rfl
@[simp] theorem reset_pk : Block.reset.pk = 0#24 := rfl
@[simp] theorem reset_fpc : Block.reset.fpc = Vector.replicate 5 0#8 := rfl
@[simp] theorem reset_fault : Block.reset.fault = false := rfl
@[simp] theorem reset_cause : Block.reset.cause = 0#4 := rfl
@[simp] theorem reset_info : Block.reset.info = 0#8 := rfl
@[simp] theorem reset_fpvalid : Block.reset.fpvalid = false := rfl
@[simp] theorem sreset_block (b : Block) : (sreset b).1 = Block.reset := rfl
@[simp] theorem sreset_response (b : Block) : (sreset b).2 = .okay 0#32 := rfl
@[simp] theorem state_reset_blk : State.reset.blk = Block.reset := rfl
@[simp] theorem state_reset_pending : State.reset.pending = [] := rfl
@[simp] theorem state_reset_responses : State.reset.responses = [] := rfl

/-! ### the host port -/

@[simp] theorem complete_blk (s : State) (a : Answer) : (s.complete a).blk = a.1 := rfl
@[simp] theorem complete_pending (s : State) (a : Answer) :
    (s.complete a).pending = s.pending := rfl
@[simp] theorem complete_responses (s : State) (a : Answer) :
    (s.complete a).responses = a.2 :: s.responses := rfl
@[simp] theorem hardwareReset_blk (s : State) : s.hardwareReset.blk = Block.reset := rfl
@[simp] theorem hardwareReset_pending (s : State) : s.hardwareReset.pending = s.pending := rfl
@[simp] theorem hardwareReset_responses (s : State) :
    s.hardwareReset.responses = s.responses := rfl
@[simp] theorem withFetchWord_blk (s : State) (n w : Nat) : (s.withFetchWord n w).blk = s.blk := rfl
@[simp] theorem withFetchWord_pending (s : State) (n w : Nat) :
    (s.withFetchWord n w).pending = .transaction (fetchTransaction n w) :: s.pending := rfl
@[simp] theorem withFetchWord_responses (s : State) (n w : Nat) :
    (s.withFetchWord n w).responses = s.responses := rfl

end Sys2Proof.Machine
end

