-- ==== Sys2Proof/Laws/Ops.lean ====
section
/-! SUPPORT. For each shared operation, one lemma that says once everything it can do; proofs cite it
instead of unfolding the operation. -/

namespace Sys2Proof.Machine

/-! ### Formats -/

@[simp] theorem tWe_mkT (we : Bool) (a : Addr) (d : Word) : tWe (mkT we a d) = we := by
  unfold tWe mkT
  rw [BitVec.getLsbD_append, BitVec.getLsbD_append]
  simp

@[simp] theorem tAddr_mkT (we : Bool) (a : Addr) (d : Word) : tAddr (mkT we a d) = a := by
  unfold tAddr mkT
  ext k hk
  simp only [BitVec.getElem_extractLsb', BitVec.getLsbD_append]
  have h1 : ¬ 32 + k < 32 := by omega
  have h2 : 32 + k - 32 = k := by omega
  simp [h2, hk]

@[simp] theorem tData_mkT (we : Bool) (a : Addr) (d : Word) : tData (mkT we a d) = d := by
  unfold tData mkT
  ext k hk
  rw [BitVec.getElem_extractLsb', BitVec.getLsbD_append]
  simp [hk]

/-- A T word is its three fields. -/
theorem mkT_fields (w : TWord) : mkT (tWe w) (tAddr w) (tData w) = w := by
  unfold mkT tWe tAddr tData
  ext k hk
  simp only [BitVec.getElem_append, BitVec.getElem_extractLsb', BitVec.getElem_ofBool]
  split
  · rw [Nat.zero_add, BitVec.getLsbD_eq_getElem]
  · rename_i h
    split
    · rw [show 32 + (k - 32) = k by omega, BitVec.getLsbD_eq_getElem]
    · have : k = 40 := by omega
      subst this
      rfl

/-- An S word is its three fields. -/
theorem sWord_fields (w : SWord) : BitVec.ofBool (sErr w) ++ sCode w ++ sData w = w := by
  unfold sErr sCode sData
  ext k hk
  simp only [BitVec.getElem_append, BitVec.getElem_extractLsb', BitVec.getElem_ofBool]
  split
  · rw [Nat.zero_add, BitVec.getLsbD_eq_getElem]
  · rename_i h
    split
    · rw [show 32 + (k - 32) = k by omega, BitVec.getLsbD_eq_getElem]
    · have : k = 36 := by omega
      subst this
      rfl

theorem ofWord_word (op : Opcode) : Opcode.ofWord op.word = some op := by
  cases op <;> decide

theorem word_of_ofWord {w : Word} {op : Opcode} (h : Opcode.ofWord w = some op) :
    w = op.word := by
  unfold Opcode.ofWord at h
  split_ifs at h <;> cases h <;> assumption

/-! ### Faults and lockout -/

/-- What the lockout does: it refuses while a fault is latched and is transparent otherwise. -/
theorem unlessLocked_cases (b : Block) (f : Block → Answer) :
    (b.fault = true ∧ b.unlessLocked f = (b, .error .faultLocked)) ∨
      (b.fault = false ∧ b.unlessLocked f = f b) := by
  unfold Block.unlessLocked
  cases b.fault <;> simp

theorem unlessLocked_of_fault {b : Block} (f : Block → Answer) (h : b.fault = true) :
    b.unlessLocked f = (b, .error .faultLocked) := by
  simp [Block.unlessLocked, h]

theorem unlessLocked_of_clear {b : Block} (f : Block → Answer) (h : b.fault = false) :
    b.unlessLocked f = f b := by
  simp [Block.unlessLocked, h]

/-! ### The address map -/

theorem regAt_address (r : Reg) : regAt (address r) = some r := by
  cases r with
  | h j => fin_cases j <;> decide
  | dgw j => fin_cases j <;> decide
  | m j => fin_cases j <;> decide
  | _ => decide

/-! ### Commands and transactions -/

/-- What FPENC can do: fault on the length, fault on an index, or write its four results. -/
theorem fpenc_cases (tail : PackTail) (b : Block) :
    (b.dlen ≠ 16#8 ∧ fpenc tail b = b.raise .invalidDigestLength b.dlen) ∨
      (b.dlen = 16#8 ∧ ∃ v, encodeDigest tail b.dg = .error v ∧
        fpenc tail b = b.raise .indexOutOfRange v) ∨
      (b.dlen = 16#8 ∧ ∃ e, encodeDigest tail b.dg = .ok e ∧
        fpenc tail b =
          ({ b with rnib := e.rnib, pk := e.pk, fpc := e.fpc, fpvalid := true }, .okay 0#32)) := by
  unfold fpenc
  by_cases h : b.dlen = 16#8
  · rcases hd : encodeDigest tail b.dg with v | e
    · exact .inr (.inl ⟨h, v, rfl, by simp [h]⟩)
    · exact .inr (.inr ⟨h, e, rfl, by simp [h, Block.done]⟩)
  · exact .inl ⟨h, by simp [h]⟩

/-- What a write to DGPUSH can do: refused for its data, or one byte offered. -/
theorem writeDgpush_cases (b : Block) (d : Word) :
    (pushByte d = none ∧ writeDgpush b d = b.accessError) ∨
      (∃ v, pushByte d = some v ∧ writeDgpush b d = pushDigest b v) := by
  unfold writeDgpush
  cases h : pushByte d with
  | none => exact .inl ⟨rfl, rfl⟩
  | some v => exact .inr ⟨v, rfl, rfl⟩

/-- What a write to CMD can do (R84): CLRF or SRESET, the lockout, the illegal word, or a command. -/
theorem writeCmd_cases (tail : PackTail) (b : Block) (w : Word) :
    (w = Opcode.clrf.word ∧ writeCmd tail b w = clrf b) ∨
      (w = Opcode.sreset.word ∧ writeCmd tail b w = sreset b) ∨
      (w ≠ Opcode.clrf.word ∧ w ≠ Opcode.sreset.word ∧
        ((b.fault = true ∧ writeCmd tail b w = (b, .error .faultLocked)) ∨
          (b.fault = false ∧ Opcode.ofWord w = none ∧
            writeCmd tail b w = b.raise .illegalCommand (commandInfo w)) ∨
          (b.fault = false ∧ ∃ op, w = op.word ∧ writeCmd tail b w = runCommand tail op b))) := by
  by_cases h6 : w = 0x00000006#32
  · exact .inl ⟨h6, by simp [writeCmd, h6]⟩
  by_cases h7 : w = 0x00000007#32
  · exact .inr (.inl ⟨h7, by simp [writeCmd, h7]⟩)
  refine .inr (.inr ⟨h6, h7, ?_⟩)
  cases hf : b.fault with
  | true => exact .inl ⟨rfl, by simp [writeCmd, h6, h7, hf]⟩
  | false =>
    cases ho : Opcode.ofWord w with
    | none => exact .inr (.inl ⟨rfl, rfl, by simp [writeCmd, h6, h7, hf, ho]⟩)
    | some op => exact .inr (.inr ⟨rfl, op, word_of_ofWord ho, by simp [writeCmd, h6, h7, hf, ho]⟩)

/-- What a bus write can do: refused, a write to CMD or DGPUSH, or one data register stored. -/
theorem busWrite_cases (tail : PackTail) (b : Block) (a : Addr) (d : Word) :
    busWrite tail b a d = b.accessError ∨
      (regAt a = some .cmd ∧ busWrite tail b a d = writeCmd tail b d) ∨
      (regAt a = some .dgpush ∧ busWrite tail b a d = writeDgpush b d) ∨
      (∃ j, regAt a = some (.h j) ∧
        busWrite tail b a d = ({ b with h := b.h.set j d }, .okay 0#32)) ∨
      (∃ j, regAt a = some (.m j) ∧
        busWrite tail b a d = ({ b with m := b.m.set j d }, .okay 0#32)) := by
  unfold busWrite
  rcases hr : regAt a with _ | r
  · exact .inl rfl
  · cases r with
    | cmd => exact .inr (.inl ⟨rfl, rfl⟩)
    | dgpush => exact .inr (.inr (.inl ⟨rfl, rfl⟩))
    | h j => exact .inr (.inr (.inr (.inl ⟨j, rfl, rfl⟩)))
    | m j => exact .inr (.inr (.inr (.inr ⟨j, rfl, rfl⟩)))
    | _ => exact .inl rfl

/-- What a bus read can do: refused, or the value of a register; the block stays. -/
theorem busRead_cases (b : Block) (a : Addr) :
    busRead b a = b.accessError ∨
      (∃ r v, regAt a = some r ∧ b.read r = some v ∧ busRead b a = (b, .okay v)) := by
  unfold busRead
  rcases hr : regAt a with _ | r
  · exact .inl rfl
  · rcases hv : b.read r with _ | v
    · exact .inl (by simp [hv])
    · exact .inr ⟨r, v, rfl, hv, by simp [hv]⟩

theorem busRead_block (b : Block) (a : Addr) : (busRead b a).1 = b := by
  rcases busRead_cases b a with h | ⟨r, v, _, _, h⟩
  · rw [h]; rfl
  · rw [h]

/-! ### The step -/

/-- What one step can do: idle, reset, a read or a write of the oldest transaction. -/
theorem step_cases (s t : State) (h : step s = .next t) :
    (s.pending = [] ∧ t = s) ∨
      (∃ rest, s.pending = .hardwareReset :: rest ∧
        t = { blk := Block.reset, pending := rest, responses := s.responses }) ∨
      (∃ w rest, s.pending = .transaction w :: rest ∧ tWe w = false ∧
        t = { blk := s.blk, pending := rest,
              responses := (busRead s.blk (tAddr w)).2 :: s.responses }) ∨
      (∃ w rest, s.pending = .transaction w :: rest ∧ tWe w = true ∧
        t = { blk := (busWrite Config.packTail s.blk (tAddr w) (tData w)).1, pending := rest,
              responses :=
                (busWrite Config.packTail s.blk (tAddr w) (tData w)).2 :: s.responses }) := by
  rcases s with ⟨b, p, q⟩
  cases p with
  | nil =>
    refine .inl ⟨rfl, ?_⟩
    simp only [step, nextInput] at h
    cases h; rfl
  | cons i rest =>
    cases i with
    | hardwareReset =>
      refine .inr (.inl ⟨rest, rfl, ?_⟩)
      simp only [step, nextInput] at h
      cases h; rfl
    | transaction w =>
      simp only [step, nextInput, decodeT] at h
      cases hw : tWe w with
      | false =>
        refine .inr (.inr (.inl ⟨w, rest, rfl, hw, ?_⟩))
        rw [hw] at h
        simp only [Bool.false_eq_true, if_false, exec, execRd, State.complete] at h
        cases h
        simp [busRead_block]
      | true =>
        refine .inr (.inr (.inr ⟨w, rest, rfl, hw, ?_⟩))
        rw [hw] at h
        simp only [if_true, exec, execWr, State.complete] at h
        cases h; rfl

/-! ### The host -/

/-- What performing a transaction can do: only with nothing pending, and then it is the step that takes
it, whose response is the one returned. -/
theorem perform_cases {s t : State} {w : TWord} {r : Response} (h : s.perform w = some (t, r)) :
    s.pending = [] ∧ step (s.issue [w]) = .next t ∧ t.responses.head? = some r := by
  unfold State.perform at h
  split at h
  · rename_i hp
    split at h
    · rename_i u hu
      cases hr : u.responses.head? with
      | none => simp [hr] at h
      | some q =>
        simp only [hr, Option.map_some, Option.some.injEq, Prod.mk.injEq] at h
        obtain ⟨rfl, rfl⟩ := h
        exact ⟨hp, hu, hr⟩
    · cases h
    · cases h
  · cases h

/-- A transaction whose step is known is performed with its response. -/
theorem perform_of_step {s t : State} {w : TWord} {r : Response} (hp : s.pending = [])
    (hs : step (s.issue [w]) = .next t) (hr : t.responses.head? = some r) :
    s.perform w = some (t, r) := by
  simp [State.perform, hp, hs, hr]

@[simp] theorem performAll_nil (s : State) : s.performAll [] = some s := rfl

theorem performAll_cons (s : State) (w : TWord) (ws : List TWord) :
    s.performAll (w :: ws) = (s.perform w).bind fun p => p.1.performAll ws := rfl

/-- What encoding and reading can do: the characters after an `OKAY`, or the error of the response, with
nothing issued after it. -/
theorem encodeAndRead_cases {s t : State} {x : FingerprintResult}
    (h : s.encodeAndRead = some (t, x)) :
    (∃ u v c, s.perform (commandT .fpenc) = some (u, .okay v) ∧ u.readCharacters = some (t, c) ∧
        x = .ok c) ∨
      (∃ e, s.perform (commandT .fpenc) = some (t, .error e) ∧ x = .error e) := by
  unfold State.encodeAndRead at h
  rcases hf : s.perform (commandT .fpenc) with _ | ⟨u, r⟩
  · rw [hf] at h; cases h
  · rw [hf] at h
    cases r with
    | okay v =>
      rcases hc : u.readCharacters with _ | ⟨t', c⟩
      · simp [hc] at h
      · simp only [hc, Option.bind_eq_bind, Option.bind_some, Option.map_some, Option.some.injEq,
          Prod.mk.injEq] at h
        obtain ⟨rfl, rfl⟩ := h
        exact .inl ⟨u, v, c, rfl, hc, rfl⟩
    | error e =>
      simp only [Option.bind_eq_bind, Option.bind_some, Option.pure_def, Option.some.injEq,
        Prod.mk.injEq] at h
      obtain ⟨rfl, rfl⟩ := h
      exact .inr ⟨e, rfl, rfl⟩

end Sys2Proof.Machine
end

