-- ==== Sys2Proof/Laws/Md5.lean ====
section
/-! SUPPORT. The functions of MD5: what the compression is once its 64 steps are known. A proof cites
these and never unfolds `md5Steps` at the literal 64. -/

namespace Sys2Proof.Machine

@[simp] theorem md5Steps_zero (m : Vector Word 16) (v : Md5Vars) : md5Steps m v 0 = v := rfl

theorem md5Steps_succ (m : Vector Word 16) (v : Md5Vars) (n : Nat) :
    md5Steps m v (n + 1) = md5Step m (Fin.ofNat 64 n) (md5Steps m v n) := rfl

/-- The compression from the working variables after the 64 steps (R106). -/
theorem compress_of_steps {h : Vector Word 4} {m : Vector Word 16} {v : Md5Vars}
    (e : md5Steps m { a := h[0], b := h[1], c := h[2], d := h[3] } 64 = v) :
    compress h m = #v[h[0] + v.a, h[1] + v.b, h[2] + v.c, h[3] + v.d] := by
  subst e
  rfl

/-- Every rotation amount is between 4 and 23 (R104). -/
theorem rotationAmount_bounds (i : Fin 64) : 4 ≤ rotationAmount i ∧ rotationAmount i ≤ 23 := by
  revert i
  decide

/-- The spec's rotation is the library's. -/
theorem rotl32_eq_rotateLeft (v : Word) {s : Nat} (h : s < 32) : rotl32 v s = v.rotateLeft s := by
  rw [rotl32, BitVec.rotateLeft_def, Nat.mod_eq_of_lt h]

end Sys2Proof.Machine
end

