-- ==== Sys2Proof/Laws/PerInstr.lean ====
section
/-! SUPPORT. Statements about every instruction as syntax, one lemma per constructor. -/

namespace Sys2Proof.Laws

/-- A transaction encodes in format T, a command in format C as the word of its opcode (R60, R66). -/
def EncodingFormat.Statement (i : Instr) : Prop :=
  (∃ w, encode i = .t w) ∨ (∃ op : Opcode, encode i = .c op.word ∧ op.instr = i)

theorem EncodingFormat.rd (addr : Addr) : EncodingFormat.Statement (.rd addr) := .inl ⟨_, rfl⟩
theorem EncodingFormat.wr (addr : Addr) (wdata : Word) :
    EncodingFormat.Statement (.wr addr wdata) := .inl ⟨_, rfl⟩
theorem EncodingFormat.nop : EncodingFormat.Statement .nop := .inr ⟨.nop, rfl, rfl⟩
theorem EncodingFormat.mdinit : EncodingFormat.Statement .mdinit := .inr ⟨.mdinit, rfl, rfl⟩
theorem EncodingFormat.mdcomp : EncodingFormat.Statement .mdcomp := .inr ⟨.mdcomp, rfl, rfl⟩
theorem EncodingFormat.dglatch : EncodingFormat.Statement .dglatch := .inr ⟨.dglatch, rfl, rfl⟩
theorem EncodingFormat.dgclr : EncodingFormat.Statement .dgclr := .inr ⟨.dgclr, rfl, rfl⟩
theorem EncodingFormat.fpenc : EncodingFormat.Statement .fpenc := .inr ⟨.fpenc, rfl, rfl⟩
theorem EncodingFormat.clrf : EncodingFormat.Statement .clrf := .inr ⟨.clrf, rfl, rfl⟩
theorem EncodingFormat.sreset : EncodingFormat.Statement .sreset := .inr ⟨.sreset, rfl, rfl⟩

end Sys2Proof.Laws
end

