-- ==== Sys2Proof/Laws/Values.lean ====
section
/-! SUPPORT. The values of the layouts as numbers: bytes of a word, words of bytes, RNIB and PK. -/

namespace Sys2Proof.Machine

theorem append_toNat {n k : Nat} (a : BitVec n) (b : BitVec k) :
    (a ++ b).toNat = a.toNat * 2 ^ k + b.toNat := by
  rw [BitVec.toNat_append, ← Nat.shiftLeft_add_eq_or_of_lt b.isLt, Nat.shiftLeft_eq]

/-- Byte `k` of a word, as a number (R43). -/
theorem wordByte_toNat (w : Word) (k : Nat) : (wordByte w k).toNat = w.toNat / 256 ^ k % 256 := by
  rw [wordByte, BitVec.extractLsb'_toNat, Nat.shiftRight_eq_div_pow, pow_mul]
  norm_num

theorem wordOfBytes_toNat (b0 b1 b2 b3 : Byte) :
    (wordOfBytes b0 b1 b2 b3).toNat =
      b3.toNat * 2 ^ 24 + b2.toNat * 2 ^ 16 + b1.toNat * 2 ^ 8 + b0.toNat := by
  simp only [wordOfBytes, append_toNat]
  omega

/-- A word is the word of its four bytes. -/
theorem wordOfBytes_wordByte (w : Word) :
    wordOfBytes (wordByte w 0) (wordByte w 1) (wordByte w 2) (wordByte w 3) = w := by
  apply BitVec.eq_of_toNat_eq
  rw [wordOfBytes_toNat]
  simp only [wordByte_toNat]
  have := w.isLt
  omega

theorem wordByte_wordOfBytes (b0 b1 b2 b3 : Byte) :
    wordByte (wordOfBytes b0 b1 b2 b3) 0 = b0 ∧ wordByte (wordOfBytes b0 b1 b2 b3) 1 = b1 ∧
      wordByte (wordOfBytes b0 b1 b2 b3) 2 = b2 ∧ wordByte (wordOfBytes b0 b1 b2 b3) 3 = b3 := by
  have h0 := b0.isLt
  have h1 := b1.isLt
  have h2 := b2.isLt
  have h3 := b3.isLt
  refine ⟨?_, ?_, ?_, ?_⟩ <;>
    (apply BitVec.eq_of_toNat_eq
     rw [wordByte_toNat, wordOfBytes_toNat]
     omega)

theorem rnibOf_toNat (r : Vector Nibble 5) :
    (rnibOf r).toNat =
      r[0].toNat + 16 * r[1].toNat + 256 * r[2].toNat + 4096 * r[3].toNat + 65536 * r[4].toNat := by
  rw [rnibOf, append_toNat, append_toNat, append_toNat, append_toNat]
  omega

theorem pkOf_toNat (p : Vector Byte 3) :
    (pkOf p).toNat = 65536 * p[0].toNat + 256 * p[1].toNat + p[2].toNat := by
  rw [pkOf, append_toNat, append_toNat]
  omega

/-- A T word as a number (R61). -/
theorem mkT_toNat (we : Bool) (a : Addr) (d : Word) :
    (mkT we a d).toNat = we.toNat * 2 ^ 40 + a.toNat * 2 ^ 32 + d.toNat := by
  rw [mkT, append_toNat, append_toNat, BitVec.toNat_ofBool]
  omega

end Sys2Proof.Machine
end

