-- ==== Sys2Proof/Tests/Slice0.lean ====
section
/-! SUPPORT. Tests. Expected values are those of spec/95_test_vectors.md (named V-…), of the rules' own
examples, or worked by hand from the rule a comment names. The last part shows, for each statement with
hypotheses, concrete values that meet them. -/

namespace Sys2Proof.Tests

open Sys2Proof.Machine Sys2Proof.Safety

/-! ### Small states -/

/-- A state with the block `b` and the inputs `p`. -/
def on (b : Block) (p : List Input) : State := { blk := b, pending := p, responses := [] }

/-- The reset block with a fault latched (V-B17). -/
def lockedBlock : Block := { Block.reset with fault := true, cause := 3#4, info := 0x09#8 }

/-- The reset block with a digest in its buffer. -/
def holding (dg : Vector Byte 16) : Block := { Block.reset with dg := dg, dlen := 16#8 }

/-- Sixteen zero bytes but for byte 3. -/
def digestWithByte3 (v : Byte) : Vector Byte 16 := (Vector.replicate 16 0#8).set 3 v

/-- The response a state gave last. -/
def last (o : Host.Outcome State Fault Refusal) : Option Response :=
  match o with
  | .next s => s.responses.head?
  | .fault _ => none
  | .refused _ => none

/-- The block of a next state. -/
def blockOf (o : Host.Outcome State Fault Refusal) : Block :=
  match o with
  | .next s => s.blk
  | .fault _ => Block.reset
  | .refused _ => Block.reset

/-! ### Decoding, from the encodings of R61 and R66 -/

-- `we = 0`, `addr = 0x80`, `wdata = 0`, written field by field (R61, V-B1).
theorem test_decode_rd_fields :
    decodeT (0#1 ++ 0x80#8 ++ 0x00000000#32) = .rd 0x80#8 := by decide

-- `wdata` of a read is ignored (R62).
theorem test_decode_rd_ignores_data :
    decodeTableWord 48 0x08412345678 = some (.rd 0x84#8) := by decide

-- `we = 1`, `addr = 0x7C`, `wdata = 0xDEADBEEF` (V-B4).
theorem test_decode_wr_fields :
    decodeT (1#1 ++ 0x7C#8 ++ 0xDEADBEEF#32) = .wr 0x7C#8 0xDEADBEEF#32 := by decide

theorem test_decode_wr : decodeTableWord 48 0x11801020304 = some (.wr 0x18#8 0x01020304#32) := by
  decide

theorem test_decode_nop : decode (.c (0#24 ++ 0x00#8)) = .ok .nop := by rfl
theorem test_decode_mdinit : decode (.c (0#24 ++ 0x01#8)) = .ok .mdinit := by rfl
theorem test_decode_mdcomp : decode (.c (0#24 ++ 0x02#8)) = .ok .mdcomp := by rfl
theorem test_decode_dglatch : decode (.c (0#24 ++ 0x03#8)) = .ok .dglatch := by rfl
theorem test_decode_dgclr : decode (.c (0#24 ++ 0x04#8)) = .ok .dgclr := by rfl
theorem test_decode_fpenc : decode (.c (0#24 ++ 0x05#8)) = .ok .fpenc := by rfl
theorem test_decode_clrf : decode (.c (0#24 ++ 0x06#8)) = .ok .clrf := by rfl
theorem test_decode_sreset : decode (.c (0#24 ++ 0x07#8)) = .ok .sreset := by rfl

-- R66: "for example MDCOMP is `0x10000000002`".
theorem test_command_as_transaction :
    (CodeWord.transaction (encode .mdcomp)).toNat = 0x10000000002 := by decide

-- R84: `0x00000106` is not CLRF.
theorem test_decode_illegal :
    decode (.c 0x00000106#32) = .error (.illegalCommand 0x00000106#32) := by rfl

-- R63: an ERROR with code 4.
theorem test_response_word : (Response.error .accessError).sWord.toNat = 0x1400000000 := by decide

/-! ### WellFormed refuses what is ill-formed -/

theorem test_wf_command_too_wide : bitsFit 32 0x100000000 = false := by decide
theorem test_wf_transaction_too_wide : bitsFit 48 0x20000000000 = false := by decide
theorem test_wf_too_wide_rejected :
    decodeBits 48 0x20000000000 = .error (.tooWide 48 0x20000000000) := by rfl
theorem test_wf_push_256 : (Stmt.push 256).wf = false := by decide
theorem test_wf_ldblk_15 : (Stmt.ldblk (List.replicate 15 0#32)).wf = false := by decide
theorem test_wf_ldblkb_63 : (Stmt.ldblkb (List.replicate 63 0#8)).wf = false := by decide
theorem test_wf_pushdg_17 : (Stmt.pushdg (List.replicate 17 0#8)).wf = false := by decide
theorem test_wf_pushdg_16 : (Stmt.pushdg (List.replicate 16 0#8)).wf = true := by decide

/-! ### One step of each instruction -/

-- V-B1 and V-B13.
theorem test_rd_id : last (exec (.rd 0x80#8) State.reset) = some (.okay 0x4D443501#32) := by decide
theorem test_rd_cmd : last (exec (.rd 0x00#8) State.reset) = some (.error .accessError) := by decide

-- V-B4 and V-B20.
theorem test_wr_m15 :
    (blockOf (exec (.wr 0x7C#8 0xDEADBEEF#32) State.reset)).m[15] = 0xDEADBEEF#32 := by decide
theorem test_wr_illegal_command :
    (blockOf (exec (.wr 0x00#8 0x00000106#32) State.reset)).status = 0x00060301#32 := by decide

-- V-S1 and V-S2.
theorem test_nop : last (exec .nop State.reset) = some (.okay 0#32) := by decide
theorem test_nop_locked : last (exec .nop (on lockedBlock [])) = some (.error .faultLocked) := by decide

-- V-M19.
theorem test_mdinit :
    (blockOf (exec .mdinit (on { Block.reset with h := Vector.replicate 4 0#32 } []))).h =
      #v[0x67452301#32, 0xefcdab89#32, 0x98badcfe#32, 0x10325476#32] := by decide

-- V-M3: the message "abc".
theorem test_mdcomp_abc :
    (blockOf (exec .mdcomp (on { Block.reset with
        m := ((Vector.replicate 16 0#32).set 0 0x80636261#32).set 14 0x00000018#32 } []))).h =
      #v[0x98500190#32, 0xb04fd23c#32, 0x7d3f96d6#32, 0x727fe128#32] := by decide +kernel

-- V-M18: every addition wraps.
theorem test_mdcomp_wraps :
    (blockOf (exec .mdcomp (on { Block.reset with
        h := Vector.replicate 4 0xffffffff#32, m := Vector.replicate 16 0xffffffff#32 } []))).h =
      #v[0x6cba9129#32, 0x29ffd12a#32, 0x8b9bb7d3#32, 0xa9a0a3c1#32] := by decide +kernel

-- V-D10 and V-D7.
theorem test_dglatch :
    (blockOf (exec .dglatch (on { Block.reset with
        h := #v[0xd98c1dd4#32, 0x04b2008f#32, 0x980980e9#32, 0x7e42f8ec#32] } []))).dg =
      emptyMessageDigest := by decide
theorem test_dglatch_status :
    (blockOf (exec .dglatch State.reset)).status = 0x00000004#32 := by decide

-- V-D9.
theorem test_dgclr :
    (blockOf (exec .dgclr (on (holding emptyMessageDigest) []))).dg = Vector.replicate 16 0#8 := by
  decide

-- V-F1, both settings of `PACK_TAIL`.
theorem test_encode_empty_discard :
    (fpenc .discard (holding emptyMessageDigest)).1.fpc = #v[0x30#8, 0x30#8, 0x33#8, 0x30#8, 0x62#8] := by
  decide
theorem test_encode_empty_flush :
    (fpenc .flush (holding emptyMessageDigest)).1.pk = 0x08030B#24 := by decide

-- V-F1 and V-F9, as the instruction: `RNIB` does not depend on `PACK_TAIL`.
theorem test_fpenc_rnib :
    (blockOf (exec .fpenc (on (holding emptyMessageDigest) []))).rnib = 0xB0308#20 := by rfl
theorem test_fpenc_index_fault :
    (blockOf (exec .fpenc (on (holding (digestWithByte3 0xF0#8)) []))).status = 0x005F0205#32 := by rfl

-- V-B22.
theorem test_clrf : (blockOf (exec .clrf (on lockedBlock []))).status = 0#32 := by decide

-- V-B23.
theorem test_sreset : blockOf (exec .sreset (on lockedBlock [])) = Block.reset := by decide

-- The whole digest of the empty message as text begins "d4" (R178).
theorem test_hex32 : (hex32 emptyMessageDigest)[0] = 0x64#8 ∧ (hex32 emptyMessageDigest)[1] = 0x34#8 := by
  decide

-- A word of the opcode table placed after reset is the next thing the block runs.
theorem test_step_runs_placed_word :
    step (State.reset.withFetchWord 48 0x08000000000) = exec (.rd 0x80#8) State.reset := by rfl

/-! ### The hypotheses of the statements are met -/

/-- One transaction waits at the block `b`. -/
def waiting (b : Block) (we : Bool) (a : Addr) (d : Word) : State :=
  on b [.transaction (mkT we a d)]

theorem test_witness_DecodeEncodeRoundTrip :
    (Instr.wr 0xFF#8 0xFFFFFFFF#32).wf = true ∧ tWe (mkT true 0xFF#8 0xFFFFFFFF#32) = true ∧
      tWe (mkT false 0xFF#8 0xFFFFFFFF#32) = false ∧ decode (.c 7#32) = .ok .sreset :=
  ⟨rfl, by decide, by decide, rfl⟩

theorem test_witness_CommandWordsAreZeroToSeven :
    7 < (8#32).toNat ∧ 7 < (0x00000100#32).toNat ∧ 7 < (0xFFFFFFFF#32).toNat := by decide

theorem test_witness_ResponseWordRoundTrip :
    Response.ofSWord 0x1500000000#37 = some (.error .faultLocked) ∧
      Response.ofSWord 0x0FFFFFFFF#37 = some (.okay 0xFFFFFFFF#32) := by decide

theorem test_witness_AddressMapIsExact :
    regAt 0x00#8 = some .cmd ∧ regAt 0x80#8 = some .id ∧ regAt 0x84#8 = none ∧ regAt 0x7F#8 = none := by
  decide

theorem test_witness_StepRunsDecodedTransaction :
    (waiting lockedBlock true 0x00#8 6#32).pending =
      .transaction (mkT true 0x00#8 6#32) :: [] := rfl

theorem test_witness_IdleAndHardwareReset :
    (on lockedBlock []).pending = [] ∧
      (on lockedBlock [.hardwareReset]).pending = .hardwareReset :: [] := ⟨rfl, rfl⟩

theorem test_witness_StepRefinesTransact :
    (waiting Block.reset false 0x80#8 0#32).pending =
      .transaction (mkT false 0x80#8 0#32) :: [] := rfl

theorem test_witness_IssuedSequenceIsFold :
    (on Block.reset [.transaction (mkT true 0x00#8 3#32), .hardwareReset]).pending =
      [mkT true 0x00#8 3#32].map Input.transaction ++ [.hardwareReset] := rfl

theorem test_witness_EveryTransactionIsAnsweredOnce :
    (waiting Block.reset true 0x00#8 5#32).pending.head? =
        some (.transaction (mkT true 0x00#8 5#32)) ∧
      (∀ w : TWord, (on Block.reset []).pending.head? ≠ some (.transaction w)) ∧
      (∀ w : TWord, (on Block.reset [.hardwareReset]).pending.head? ≠ some (.transaction w)) :=
  ⟨rfl, fun _ h => (by cases h), fun _ h => (by cases h)⟩

theorem test_witness_MessageRegisterAccess :
    exec .mdinit State.reset = .next (afterAnswer State.reset Block.reset (.okay 0#32)) := rfl

theorem test_witness_BadAccessesAreRefused :
    (0x01#8 : Addr).toNat % 4 ≠ 0 ∧ (0xFF#8 : Addr).toNat % 4 ≠ 0 ∧
      ((0x84#8 : Addr).toNat % 4 = 0 ∧ 0x84 ≤ (0x84#8 : Addr).toNat) ∧
      ((0xFC#8 : Addr).toNat % 4 = 0 ∧ 0x84 ≤ (0xFC#8 : Addr).toNat) ∧
      (0x00#8 : Addr).toNat ∈ [0x00, 0x0C] ∧
      (0x80#8 : Addr).toNat ∈
        [0x04, 0x08, 0x20, 0x24, 0x28, 0x2C, 0x30, 0x34, 0x38, 0x3C, 0x80] := by decide

theorem test_witness_PushStoresCountsAndInvalidates :
    256 ≤ (256#32).toNat ∧ (255#32).toNat < 256 ∧ (0#32).toNat < 256 := by decide

theorem test_witness_IllegalWordRaisesFault :
    State.reset.blk.fault = false ∧ 7 < (8#32).toNat ∧ 7 < (0xFFFFFFFF#32).toNat := by decide

theorem test_witness_LockoutRefusesCommandsOnly :
    lockedBlock.fault = true ∧ ((5#32).toNat ≠ 6 ∧ (5#32).toNat ≠ 7) ∧
      ((8#32).toNat ≠ 6 ∧ (8#32).toNat ≠ 7) ∧
      (0x04#8 : Addr).toNat ≠ 0 ∧ (0x00#8 : Addr).toNat ≠ 4 := by decide

/-- Both values of `FAULT`, for the statements of NOP, MDINIT, MDCOMP, DGCLR and DGLATCH. -/
theorem test_witness_commands :
    State.reset.blk.fault = false ∧ (on lockedBlock []).blk.fault = true := by decide

/-- The working variables of MDCOMP from the reset state are four such sequences. -/
theorem test_witness_MdcompObeysStepEquations :
    let v := md5Steps Block.reset.m ⟨Block.reset.h[0], Block.reset.h[1], Block.reset.h[2], Block.reset.h[3]⟩
    State.reset.blk.fault = false ∧
    (v 0).a = Block.reset.h[0] ∧ (v 0).b = Block.reset.h[1] ∧ (v 0).c = Block.reset.h[2] ∧
    (v 0).d = Block.reset.h[3] ∧
    (∀ i : Fin 64, (v (i.val + 1)).a = (v i).d ∧ (v (i.val + 1)).d = (v i).c ∧
      (v (i.val + 1)).c = (v i).b ∧
      (i.val < 16 → (v (i.val + 1)).b = (v i).b +
        ((v i).a + (((v i).b &&& (v i).c) ||| (~~~((v i).b) &&& (v i).d)) + kTable[i] +
          Block.reset.m[i.val % 16]).rotateLeft ([7, 12, 17, 22][i.val % 4]!)) ∧
      (16 ≤ i.val → i.val < 32 → (v (i.val + 1)).b = (v i).b +
        ((v i).a + (((v i).d &&& (v i).b) ||| (~~~((v i).d) &&& (v i).c)) + kTable[i] +
          Block.reset.m[(5 * i.val + 1) % 16]).rotateLeft ([5, 9, 14, 20][i.val % 4]!)) ∧
      (32 ≤ i.val → i.val < 48 → (v (i.val + 1)).b = (v i).b +
        ((v i).a + ((v i).b ^^^ (v i).c ^^^ (v i).d) + kTable[i] +
          Block.reset.m[(3 * i.val + 5) % 16]).rotateLeft ([4, 11, 16, 23][i.val % 4]!)) ∧
      (48 ≤ i.val → (v (i.val + 1)).b = (v i).b +
        ((v i).a + ((v i).c ^^^ ((v i).b ||| ~~~((v i).d))) + kTable[i] +
          Block.reset.m[(7 * i.val) % 16]).rotateLeft ([6, 10, 15, 21][i.val % 4]!))) := by
  decide +kernel

theorem test_witness_RotationMovesEveryBit :
    (0 < 1 ∧ 1 < 32 ∧ 0 < 32) ∧ (0 < 31 ∧ 31 < 32 ∧ 31 < 32) := by decide

theorem test_witness_EmptyBlockCompressed :
    let s := on { Block.reset with m := (Vector.replicate 16 0#32).set 0 0x00000080#32 } []
    s.blk.fault = false ∧
      s.blk.h = #v[0x67452301#32, 0xEFCDAB89#32, 0x98BADCFE#32, 0x10325476#32] ∧
      s.blk.m = (Vector.replicate 16 0#32).set 0 0x00000080#32 := by decide

theorem test_witness_DglatchSerialisesChainingValue :
    State.reset.blk.fault = false ∧ (on lockedBlock []).blk.fault = true ∧
      exec .dglatch State.reset =
        .next (State.reset.complete (dglatch Block.reset)) := ⟨rfl, rfl, rfl⟩

theorem test_witness_FpencResultInClosedForm :
    let s := on (holding (digestWithByte3 0xEF#8)) []
    s.blk.fault = false ∧ s.blk.dlen = 16#8 ∧ s.blk.dg[3].toNat < 0xF0 := by decide

theorem test_witness_FpencFaultsByLengthThenIndex :
    (Block.reset.fault = false ∧ Block.reset.dlen ≠ 16#8) ∧
      ({ Block.reset with dlen := 17#8 }.fault = false ∧ { Block.reset with dlen := 17#8 }.dlen ≠ 16#8) ∧
      ((holding (digestWithByte3 0xF0#8)).fault = false ∧
        (holding (digestWithByte3 0xF0#8)).dlen = 16#8 ∧
        0xF0 ≤ (holding (digestWithByte3 0xF0#8)).dg[3].toNat) ∧
      (holding (digestWithByte3 0xFF#8)).fault = false ∧ lockedBlock.fault = true := by decide

/-- Two different digests that agree in the ten nibbles. -/
theorem test_witness_FpencDependsOnTenNibbles :
    let s1 := on (holding (Vector.replicate 16 0#8)) []
    let s2 := on (holding ((Vector.replicate 16 0#8).set 15 0xFF#8)) []
    s1.blk.fault = false ∧ s2.blk.fault = false ∧ s1.blk.dlen = 16#8 ∧ s2.blk.dlen = 16#8 ∧
      s1.blk.dg ≠ s2.blk.dg ∧
      (∀ k ∈ [14, 3, 6, 8, 2], flatNibble s1.blk.dg k = flatNibble s2.blk.dg k) ∧
      (∀ p ∈ [(14, 0), (3, 13), (6, 16), (8, 11), (2, 5)],
        flatNibble s1.blk.dg (p.2 + flatNibble s1.blk.dg p.1 + 1) =
          flatNibble s2.blk.dg (p.2 + flatNibble s1.blk.dg p.1 + 1)) := by decide

theorem test_witness_CombinedReadIsTwoNibbles :
    31 < 32 ∧ inRange 30#16 ∧ inRange 29#16 ∧ ¬ inRange 31#16 := by decide

/-- A step that answers a fault, one for each cause. -/
theorem test_witness_FaultEntryIsPrecise :
    (∃ t, step (waiting Block.reset true 0x00#8 5#32) = .next t ∧
      t.responses = .error (.fault .invalidDigestLength) :: []) ∧
    (∃ t, step (waiting (holding (digestWithByte3 0xF0#8)) true 0x00#8 5#32) = .next t ∧
      t.responses = .error (.fault .indexOutOfRange) :: []) ∧
    (∃ t, step (waiting Block.reset true 0x00#8 8#32) = .next t ∧
      t.responses = .error (.fault .illegalCommand) :: []) :=
  ⟨⟨_, rfl, rfl⟩, ⟨_, rfl, rfl⟩, ⟨_, rfl, rfl⟩⟩

theorem test_witness_RefusalChangesNothing :
    (∃ t, step (waiting Block.reset false 0x84#8 0#32) = .next t ∧
      t.responses = .error .accessError :: []) ∧
    (∃ t, step (waiting lockedBlock true 0x00#8 0#32) = .next t ∧
      t.responses = .error .faultLocked :: []) := ⟨⟨_, rfl, rfl⟩, ⟨_, rfl, rfl⟩⟩

theorem test_witness_LatchedFaultIsHeld :
    (waiting lockedBlock true 0x00#8 5#32).blk.fault = true ∧
      (∃ t, step (waiting lockedBlock true 0x00#8 5#32) = .next t) ∧
      ¬ NextWritesCmd (waiting lockedBlock true 0x00#8 5#32) 6#32 ∧
      ¬ NextWritesCmd (waiting lockedBlock true 0x00#8 5#32) 7#32 ∧
      ¬ NextIsReset (waiting lockedBlock true 0x00#8 5#32) :=
  ⟨rfl, ⟨_, rfl⟩, by decide, by decide, by decide⟩

/-- A change of each kind of component. -/
theorem test_witness_ComponentsChangeOnlyByTheirWriters :
    (∃ t, step (waiting Block.reset true 0x1C#8 1#32) = .next t ∧ t.blk.h ≠ Block.reset.h) ∧
    (∃ t, step (waiting Block.reset true 0x40#8 1#32) = .next t ∧ t.blk.m ≠ Block.reset.m) ∧
    (∃ t, step (waiting Block.reset true 0x0C#8 255#32) = .next t ∧ t.blk.dg ≠ Block.reset.dg) ∧
    (∃ t, step (waiting (holding emptyMessageDigest) true 0x00#8 5#32) = .next t ∧
      t.blk.rnib ≠ Block.reset.rnib) ∧
    (∃ t, step (waiting lockedBlock true 0x00#8 6#32) = .next t ∧ t.blk.fault ≠ lockedBlock.fault) :=
  ⟨⟨_, rfl, by decide⟩, ⟨_, rfl, by decide⟩, ⟨_, rfl, by decide⟩,
    ⟨_, rfl, fun h => absurd (congrArg BitVec.toNat h) (by decide : ¬ 0xB0308 = 0)⟩,
    ⟨_, rfl, by decide⟩⟩

theorem test_witness_ResultValidityTracksBuffer :
    (∃ t, step (waiting (holding emptyMessageDigest) true 0x00#8 5#32) = .next t ∧
      (holding emptyMessageDigest).fpvalid = false ∧ t.blk.fpvalid = true) ∧
    (∃ t, step (waiting Block.reset true 0x0C#8 1#32) = .next t ∧ t.blk.dlen ≠ Block.reset.dlen) ∧
    (∃ t, step (waiting { holding emptyMessageDigest with fpvalid := true } true 0x00#8 4#32) = .next t ∧
      t.blk.fpvalid = false) :=
  ⟨⟨_, rfl, rfl, rfl⟩, ⟨_, rfl, by decide⟩, ⟨_, rfl, rfl⟩⟩

/-- The reset block meets the invariant (also the premise of StepKeepsInvariant). -/
theorem test_witness_invariant : BlockInv Block.reset :=
  ⟨by decide, by decide, fun h => (by cases h), by decide⟩

theorem test_witness_FaultingFpencFindsResultsInvalid :
    StateInv State.reset ∧ ∃ t, exec .fpenc State.reset = .next t ∧
      t.responses = .error (.fault .invalidDigestLength) :: State.reset.responses :=
  ⟨test_witness_invariant, _, rfl, rfl⟩

theorem test_witness_ResetValues :
    (NextIsReset (on lockedBlock [.hardwareReset]) ∧
      ∃ t, step (on lockedBlock [.hardwareReset]) = .next t) ∧
    (NextWritesCmd (waiting lockedBlock true 0x00#8 7#32) 7#32 ∧
      ∃ t, step (waiting lockedBlock true 0x00#8 7#32) = .next t) :=
  ⟨⟨rfl, _, rfl⟩, ⟨rfl, _, rfl⟩⟩

theorem test_witness_StepKeepsInvariant :
    StateInv (waiting Block.reset true 0x0C#8 0xD4#32) ∧
      ∃ t, step (waiting Block.reset true 0x0C#8 0xD4#32) = .next t :=
  ⟨test_witness_invariant, _, rfl⟩

theorem test_witness_BlockLoadedAndCompressed :
    (List.replicate 64 0x78#8).length = 64 ∧ State.reset.blk.fault = false ∧
      State.reset.pending = [] := by decide

theorem test_witness_HostSequenceComputesMd5 :
    State.reset.blk.fault = false ∧ State.reset.pending = [] := ⟨rfl, rfl⟩

theorem test_witness_PushedBytesFillBuffer :
    (on (holding emptyMessageDigest) []).blk.fault = false ∧
      (on (holding emptyMessageDigest) []).pending = [] := ⟨rfl, rfl⟩

theorem test_witness_HostSequenceReadsFingerprint :
    let s := on { Block.reset with h := #v[0xEFFFFFFF#32, 0#32, 0#32, 0#32] } []
    s.blk.fault = false ∧ s.pending = [] ∧ s.blk.h[0].toNat / 256 ^ 3 < 0xF0 := by decide

/-- Byte 3 at the two boundary values, a latched fault, and nothing pending. -/
theorem test_witness_HostFingerprintOrError :
    let s := fun a : Word => on { Block.reset with h := #v[a, 0#32, 0#32, 0#32] } []
    ((s 0xEFFFFFFF#32).pending = [] ∧ (s 0xEFFFFFFF#32).blk.fault = false ∧
      (s 0xEFFFFFFF#32).blk.h[0].toNat / 256 ^ 3 < 0xF0) ∧
    ((s 0xF0000000#32).blk.fault = false ∧ 0xF0 ≤ (s 0xF0000000#32).blk.h[0].toNat / 256 ^ 3) ∧
    ((on lockedBlock []).pending = [] ∧ (on lockedBlock []).blk.fault = true) := by decide

theorem test_witness_HostPushedFingerprintOrError :
    (State.reset.pending = [] ∧ State.reset.blk.fault = false) ∧
      (digestWithByte3 0xEF#8)[3].toNat < 0xF0 ∧ 0xF0 ≤ (digestWithByte3 0xF0#8)[3].toNat ∧
      ([] : List Byte).length ≠ 16 ∧ (List.replicate 15 0#8).length ≠ 16 ∧
      (List.replicate 17 0#8).length ≠ 16 := by decide

/-! ### The host sequences -/

/-- What the host's operation returned. -/
def result (o : Option (State × FingerprintResult)) : Option FingerprintResult := o.map fun p => p.2

-- V-F9: the response to FPENC is `ERROR(2)`, so the operation fails.
theorem test_host_index_fault :
    result ((on { Block.reset with h := #v[0xF0000000#32, 0#32, 0#32, 0#32] } []).encodeLatched) =
      some (.error (.fault .indexOutOfRange)) := by rfl

-- V-F12: fifteen bytes.
theorem test_host_short_digest :
    result (State.reset.encodePushed (List.replicate 15 0#8)) =
      some (.error (.fault .invalidDigestLength)) := by rfl

-- V-F6: the all-zero digest has a Fingerprint.
theorem test_host_zero_digest :
    (result (State.reset.encodePushed (List.replicate 16 0#8))).map Except.isOk = some true := by rfl

end Sys2Proof.Tests
end

/-! What one transaction can do to the block, said once as an inductive relation; then R28, R18, R20, R26 and
the invariant of R14, R17, R19 and R20, each by cases on it (spec/10_state.md). -/

namespace Sys2Proof.Machine

open Sys2Proof.Safety

/-! ### Addresses and command words -/

/-- The word slots of the address map, `ID` the last of them (R41). -/
theorem address_of_regOfSlot : ∀ n < 33, ∀ r ∈ regOfSlot n, address r = BitVec.ofNat 8 (4 * n) := by
  decide

/-- The address map is injective: only its own address names a register (R41). -/
theorem eq_address_of_regAt {a : Addr} {r : Reg} (h : regAt a = some r) : a = address r := by
  unfold regAt at h
  split_ifs at h with halign hlast
  have hmod : a.toNat % 4 = 0 := by
    simpa using congrArg BitVec.toNat (not_not.mp halign)
  rw [address_of_regOfSlot (a.toNat / 4) (by omega) r h]
  bv_omega

theorem address_h_range (j : Fin 4) :
    0x10 ≤ (address (.h j)).toNat ∧ (address (.h j)).toNat ≤ 0x1C := by
  simp [address]
  omega

theorem address_m_range (j : Fin 16) :
    0x40 ≤ (address (.m j)).toNat ∧ (address (.m j)).toNat ≤ 0x7C := by
  simp [address]
  omega

/-- A word accepted by `DGPUSH` is its low byte, extended with zeros (R67). -/
theorem eq_setWidth_of_pushByte {d : Word} {v : Byte} (h : pushByte d = some v) :
    d = v.setWidth 32 := by
  unfold pushByte at h
  split_ifs at h with hhigh
  cases h
  have h0 := congrArg BitVec.toNat (not_not.mp hhigh)
  apply BitVec.eq_of_toNat_eq
  simp [Nat.shiftRight_eq_div_pow] at h0 ⊢
  omega

/-- An illegal command word is above the eight of R66 (R68). -/
theorem eight_le_of_ofWord_none {d : Word} (h : Opcode.ofWord d = none) : 8 ≤ d.toNat := by
  unfold Opcode.ofWord at h
  split_ifs at h
  bv_omega

/-! ### The fields of a command and of a push -/

@[simp] theorem tAddr_commandT (op : Opcode) : tAddr (commandT op) = 0x00#8 := tAddr_mkT _ _ _
@[simp] theorem tData_commandT (op : Opcode) : tData (commandT op) = op.word := tData_mkT _ _ _
@[simp] theorem tAddr_pushT (v : Byte) : tAddr (pushT v) = 0x0C#8 := tAddr_mkT _ _ _
@[simp] theorem tData_pushT (v : Byte) : tData (pushT v) = v.setWidth 32 := tData_mkT _ _ _

/-! ### Everything one transaction can do -/

/-- `Transacts b w a`: a case list that covers every answer `a` the transaction `w` can have on the block `b`
(R80 to R90); `step_transacts` is the proof that it does. -/
inductive Transacts (b : Block) : TWord → Answer → Prop
  /-- A read, answered or refused, leaves the block (R47). -/
  | read (addr : Addr) (d : Word) : Transacts b (mkT false addr d) (b, (busRead b addr).2)
  /-- A write that is refused leaves the block (R190). -/
  | refused (addr : Addr) (d : Word) (e : ErrorCode) (he : e = .accessError ∨ e = .faultLocked) :
      Transacts b (mkT true addr d) (b, .error e)
  | writeH (j : Fin 4) (d : Word) :
      Transacts b (mkT true (address (.h j)) d) ({ b with h := b.h.set j d }, .okay 0#32)
  | writeM (j : Fin 16) (d : Word) :
      Transacts b (mkT true (address (.m j)) d) ({ b with m := b.m.set j d }, .okay 0#32)
  | push (v : Byte) : Transacts b (pushT v) (pushDigest b v)
  | illegal (d : Word) (hf : b.fault = false) (hd : Opcode.ofWord d = none) :
      Transacts b (mkT true (address .cmd) d) (b.raise .illegalCommand (commandInfo d))
  /-- A command runs while no fault is latched; CLRF and SRESET run always (R203). -/
  | command (op : Opcode) (hf : b.fault = false ∨ op = .clrf ∨ op = .sreset) :
      Transacts b (commandT op) (runCommand Config.packTail op b)

theorem writeCmd_transacts (b : Block) (d : Word) :
    Transacts b (mkT true (address .cmd) d) (writeCmd Config.packTail b d) := by
  rcases writeCmd_cases Config.packTail b d with
    ⟨rfl, h⟩ | ⟨rfl, h⟩ | ⟨-, -, ⟨-, h⟩ | ⟨hf, hd, h⟩ | ⟨hf, op, rfl, h⟩⟩ <;> rw [h]
  · exact .command .clrf (.inr (.inl rfl))
  · exact .command .sreset (.inr (.inr rfl))
  · exact .refused _ _ _ (.inr rfl)
  · exact .illegal d hf hd
  · exact .command op (.inl hf)

theorem busWrite_transacts (b : Block) (addr : Addr) (d : Word) :
    Transacts b (mkT true addr d) (busWrite Config.packTail b addr d) := by
  rcases busWrite_cases Config.packTail b addr d with
    h | ⟨hr, h⟩ | ⟨hr, h⟩ | ⟨j, hr, h⟩ | ⟨j, hr, h⟩ <;> rw [h]
  · exact .refused _ _ _ (.inl rfl)
  · rw [eq_address_of_regAt hr]
    exact writeCmd_transacts b d
  · rw [eq_address_of_regAt hr]
    rcases writeDgpush_cases b d with ⟨-, hp⟩ | ⟨v, hv, hp⟩ <;> rw [hp]
    · exact .refused _ _ _ (.inl rfl)
    · rw [eq_setWidth_of_pushByte hv]
      exact .push v
  · rw [eq_address_of_regAt hr]
    exact .writeH j d
  · rw [eq_address_of_regAt hr]
    exact .writeM j d

/-- What one step can do: idle, reset, or take the oldest transaction with one of its answers. -/
theorem step_transacts {s t : State} (h : step s = .next t) :
    (s.pending = [] ∧ t = s) ∨
      (∃ rest, s.pending = .hardwareReset :: rest ∧
        t = { blk := Block.reset, pending := rest, responses := s.responses }) ∨
      (∃ w rest a, s.pending = .transaction w :: rest ∧ Transacts s.blk w a ∧
        t = { blk := a.1, pending := rest, responses := a.2 :: s.responses }) := by
  rcases step_cases s t h with h | h | ⟨w, rest, hp, hwe, rfl⟩ | ⟨w, rest, hp, hwe, rfl⟩
  · exact .inl h
  · exact .inr (.inl h)
  · refine .inr (.inr ⟨w, rest, (s.blk, (busRead s.blk (tAddr w)).2), hp, ?_, rfl⟩)
    have hw := mkT_fields w
    rw [hwe] at hw
    rw [← hw, tAddr_mkT]
    exact .read _ _
  · refine .inr (.inr ⟨w, rest, _, hp, ?_, rfl⟩)
    have hw := mkT_fields w
    rw [hwe] at hw
    have ht := busWrite_transacts s.blk (tAddr w) (tData w)
    rwa [hw] at ht

/-- The step that takes a transaction. -/
theorem transacts_of_head {s t : State} {w : TWord} (hp : s.pending.head? = some (.transaction w))
    (h : step s = .next t) : ∃ r, Transacts s.blk w (t.blk, r) := by
  rcases step_transacts h with ⟨h0, -⟩ | ⟨rest, h0, -⟩ | ⟨w', rest, a, h0, ha, rfl⟩ <;>
    rw [h0] at hp <;> cases hp
  exact ⟨a.2, ha⟩

/-- The step that takes the hardware reset input (R221). -/
theorem blk_of_reset {s t : State} (hp : NextIsReset s) (h : step s = .next t) :
    t.blk = Block.reset := by
  rcases step_transacts h with ⟨h0, -⟩ | ⟨rest, h0, rfl⟩ | ⟨w, rest, a, h0, -, -⟩
  · rw [NextIsReset, h0] at hp; cases hp
  · rfl
  · rw [NextIsReset, h0] at hp; cases hp

/-- The step that takes a write leaves the block of that write. -/
theorem blk_of_write {s t : State} {addr : Addr} {d : Word}
    (hp : s.pending.head? = some (.transaction (mkT true addr d))) (h : step s = .next t) :
    t.blk = (busWrite Config.packTail s.blk addr d).1 := by
  rcases step_cases s t h with ⟨h0, -⟩ | ⟨rest, h0, -⟩ | ⟨w, rest, h0, hwe, -⟩ | ⟨w, rest, h0, -, rfl⟩ <;>
    rw [h0] at hp <;> cases hp
  · rw [tWe_mkT] at hwe; cases hwe
  · rw [tAddr_mkT, tData_mkT]

/-- SRESET resets the block, whether or not a fault is latched (R163, R203). -/
theorem blk_of_sreset {s t : State} (hp : NextWritesCmd s 7#32) (h : step s = .next t) :
    t.blk = Block.reset := by
  rw [blk_of_write hp h]
  rfl

/-! ### What the commands leave unchanged (R28) -/

/-- FPENC writes results or fault fields and nothing else (R148, R200). -/
theorem fpenc_frame (tail : PackTail) (b : Block) :
    (fpenc tail b).1.h = b.h ∧ (fpenc tail b).1.m = b.m ∧ (fpenc tail b).1.dg = b.dg ∧
      (fpenc tail b).1.dlen = b.dlen := by
  rcases fpenc_cases tail b with ⟨-, h⟩ | ⟨-, v, -, h⟩ | ⟨-, e, -, h⟩ <;> rw [h] <;>
    exact ⟨rfl, rfl, rfl, rfl⟩

@[simp] theorem fpenc_h (tail : PackTail) (b : Block) : (fpenc tail b).1.h = b.h :=
  (fpenc_frame tail b).1
@[simp] theorem fpenc_m (tail : PackTail) (b : Block) : (fpenc tail b).1.m = b.m :=
  (fpenc_frame tail b).2.1
@[simp] theorem fpenc_dg (tail : PackTail) (b : Block) : (fpenc tail b).1.dg = b.dg :=
  (fpenc_frame tail b).2.2.1
@[simp] theorem fpenc_dlen (tail : PackTail) (b : Block) : (fpenc tail b).1.dlen = b.dlen :=
  (fpenc_frame tail b).2.2.2

/-- FPENC never clears `FPVALID`: a fault leaves it as it is (R200). -/
theorem fpenc_keeps_fpvalid (tail : PackTail) {b : Block} (hv : b.fpvalid = true) :
    (fpenc tail b).1.fpvalid = true := by
  rcases fpenc_cases tail b with ⟨-, h⟩ | ⟨-, v, -, h⟩ | ⟨-, e, -, h⟩ <;> rw [h]
  · exact hv
  · exact hv

theorem runCommand_h_changed {tail : PackTail} {op : Opcode} {b : Block}
    (h : (runCommand tail op b).1.h ≠ b.h) : op = .mdinit ∨ op = .mdcomp ∨ op = .sreset := by
  cases op with
  | mdinit | mdcomp | sreset => simp
  | nop | dglatch | dgclr | fpenc | clrf => simp [runCommand] at h

theorem runCommand_m_changed {tail : PackTail} {op : Opcode} {b : Block}
    (h : (runCommand tail op b).1.m ≠ b.m) : op = .sreset := by
  cases op with
  | sreset => simp
  | nop | mdinit | mdcomp | dglatch | dgclr | fpenc | clrf => simp [runCommand] at h

theorem runCommand_buffer_changed {tail : PackTail} {op : Opcode} {b : Block}
    (h : (runCommand tail op b).1.dg ≠ b.dg ∨ (runCommand tail op b).1.dlen ≠ b.dlen) :
    op = .dglatch ∨ op = .dgclr ∨ op = .sreset := by
  cases op with
  | dglatch | dgclr | sreset => simp
  | nop | mdinit | mdcomp | fpenc | clrf => simp [runCommand] at h

theorem runCommand_results_changed {tail : PackTail} {op : Opcode} {b : Block}
    (h : (runCommand tail op b).1.rnib ≠ b.rnib ∨ (runCommand tail op b).1.pk ≠ b.pk ∨
      (runCommand tail op b).1.fpc ≠ b.fpc) : op = .fpenc ∨ op = .sreset := by
  cases op with
  | fpenc | sreset => simp
  | nop | mdinit | mdcomp | dglatch | dgclr | clrf => simp [runCommand] at h

theorem runCommand_faultFields_changed {tail : PackTail} {op : Opcode} {b : Block}
    (h : (runCommand tail op b).1.fault ≠ b.fault ∨ (runCommand tail op b).1.cause ≠ b.cause ∨
      (runCommand tail op b).1.info ≠ b.info) : op = .fpenc ∨ op = .clrf ∨ op = .sreset := by
  cases op with
  | fpenc | clrf | sreset => simp
  | nop | mdinit | mdcomp | dglatch | dgclr => simp [runCommand] at h

theorem runCommand_sets_fpvalid {tail : PackTail} {op : Opcode} {b : Block}
    (h0 : b.fpvalid = false) (h1 : (runCommand tail op b).1.fpvalid = true) : op = .fpenc := by
  cases op with
  | fpenc => simp
  | nop | mdinit | mdcomp | dglatch | dgclr | clrf | sreset => simp [runCommand, h0] at h1

theorem runCommand_clears_fpvalid {tail : PackTail} {op : Opcode} {b : Block}
    (h1 : b.fpvalid = true) (h0 : (runCommand tail op b).1.fpvalid = false) :
    op = .dglatch ∨ op = .dgclr ∨ op = .sreset := by
  cases op with
  | dglatch | dgclr | sreset => simp
  | nop | mdinit | mdcomp | fpenc | clrf => simp [runCommand, h1, fpenc_keeps_fpvalid] at h0

/-! ### Which transaction changes which component (R28) -/

section Writers

variable {b : Block} {w : TWord} {a : Answer}

theorem Transacts.tWe_of_changed (ht : Transacts b w a) (h : a.1 ≠ b) : tWe w = true := by
  cases ht with
  | read addr d => exact absurd rfl h
  | _ => exact tWe_mkT _ _ _

theorem Transacts.h_writer (ht : Transacts b w a) (h : a.1.h ≠ b.h) :
    (∃ j d, w = mkT true (address (.h j)) d) ∨
      w = commandT .mdinit ∨ w = commandT .mdcomp ∨ w = commandT .sreset := by
  cases ht with
  | writeH j d => exact .inl ⟨j, d, rfl⟩
  | command op hf => rcases runCommand_h_changed h with rfl | rfl | rfl <;> simp
  | _ => exact absurd rfl h

theorem Transacts.m_writer (ht : Transacts b w a) (h : a.1.m ≠ b.m) :
    (∃ j d, w = mkT true (address (.m j)) d) ∨ w = commandT .sreset := by
  cases ht with
  | writeM j d => exact .inl ⟨j, d, rfl⟩
  | command op hf => exact .inr (by rw [runCommand_m_changed h])
  | _ => exact absurd rfl h

theorem Transacts.buffer_writer (ht : Transacts b w a) (h : a.1.dg ≠ b.dg ∨ a.1.dlen ≠ b.dlen) :
    (∃ v, w = pushT v) ∨ w = commandT .dglatch ∨ w = commandT .dgclr ∨ w = commandT .sreset := by
  cases ht with
  | push v => exact .inl ⟨v, rfl⟩
  | command op hf => rcases runCommand_buffer_changed h with rfl | rfl | rfl <;> simp
  | _ => simp at h

theorem Transacts.results_writer (ht : Transacts b w a)
    (h : a.1.rnib ≠ b.rnib ∨ a.1.pk ≠ b.pk ∨ a.1.fpc ≠ b.fpc) :
    w = commandT .fpenc ∨ w = commandT .sreset := by
  cases ht with
  | command op hf => rcases runCommand_results_changed h with rfl | rfl <;> simp
  | _ => simp at h

theorem Transacts.faultFields_writer (ht : Transacts b w a)
    (h : a.1.fault ≠ b.fault ∨ a.1.cause ≠ b.cause ∨ a.1.info ≠ b.info) :
    ∃ d : Word, w = mkT true (address .cmd) d ∧ 5 ≤ d.toNat := by
  cases ht with
  | illegal d hf hd => exact ⟨d, rfl, by have := eight_le_of_ofWord_none hd; omega⟩
  | command op hf =>
    refine ⟨op.word, rfl, ?_⟩
    rcases runCommand_faultFields_changed h with rfl | rfl | rfl <;> decide
  | _ => simp at h

/-- While a fault is latched, the only commands that run are CLRF and SRESET (R203). -/
theorem Transacts.faultFields_of_latched (ht : Transacts b w a) (hf : b.fault = true)
    (h6 : w ≠ commandT .clrf) (h7 : w ≠ commandT .sreset) :
    a.1.fault = true ∧ a.1.cause = b.cause ∧ a.1.info = b.info := by
  cases ht with
  | illegal d hclear hd => simp [hclear] at hf
  | command op hop => rcases hop with hclear | rfl | rfl <;> simp_all
  | _ => exact ⟨hf, rfl, rfl⟩

/-! ### `FPVALID` (R20) -/

theorem Transacts.fpvalid_setter (ht : Transacts b w a) (h0 : b.fpvalid = false)
    (h1 : a.1.fpvalid = true) : w = commandT .fpenc := by
  cases ht with
  | command op hf => rw [runCommand_sets_fpvalid h0 h1]
  | _ => simp [h0] at h1

theorem Transacts.fpvalid_of_buffer_changed (ht : Transacts b w a)
    (h : a.1.dg ≠ b.dg ∨ a.1.dlen ≠ b.dlen) : a.1.fpvalid = false := by
  cases ht with
  | push v => exact pushDigest_fpvalid b v
  | command op hf => rcases runCommand_buffer_changed h with rfl | rfl | rfl <;> rfl
  | _ => simp at h

theorem Transacts.fpvalid_clearer (ht : Transacts b w a) (h1 : b.fpvalid = true)
    (h0 : a.1.fpvalid = false) :
    (∃ v, w = pushT v) ∨ w = commandT .dglatch ∨ w = commandT .dgclr ∨ w = commandT .sreset := by
  cases ht with
  | push v => exact .inl ⟨v, rfl⟩
  | command op hf => rcases runCommand_clears_fpvalid h1 h0 with rfl | rfl | rfl <;> simp
  | _ => simp [h1] at h0

end Writers

/-! ### The characters (R17) -/

theorem hexchar_isHexCode (v : Nibble) : IsHexCode (hexchar v) := by
  unfold hexchar
  split
  · refine .inl ?_
    bv_omega
  · refine .inr ?_
    bv_omega

theorem fingerprint_isHexCode (p : Vector Byte 3) (k : Fin 5) : IsHexCode (fingerprint p)[k] := by
  fin_cases k <;> exact hexchar_isHexCode _

/-- The characters FPENC writes are rendered from packed bytes (R146). -/
theorem encodeDigest_fpc {tail : PackTail} {dg : Vector Byte 16} {e : Encoding}
    (h : encodeDigest tail dg = .ok e) : ∃ p, e.fpc = fingerprint p := by
  unfold encodeDigest at h
  cases hr : iterations dg with
  | error v => rw [hr] at h; cases h
  | ok r => rw [hr] at h; cases h; exact ⟨_, rfl⟩

/-! ### The invariant of the block, kept by every change (R14, R17, R19, R20) -/

theorem blockInv_reset : BlockInv Block.reset where
  bufferTail j _ := by simp
  faultFields := ⟨fun _ => ⟨rfl, rfl⟩, nofun⟩
  results := nofun
  characters k := by simp

theorem FaultCause.code_cases (c : FaultCause) : c.code = 1#4 ∨ c.code = 2#4 ∨ c.code = 3#4 := by
  cases c <;> decide

theorem blockInv_raise {b : Block} (hi : BlockInv b) (c : FaultCause) (v : Byte) :
    BlockInv (b.raise c v).1 where
  bufferTail := hi.bufferTail
  faultFields := ⟨nofun, fun _ => c.code_cases⟩
  results := hi.results
  characters := hi.characters

/-- The count of an accepted push, with its saturation (R124). -/
theorem pushDigest_dlen_toNat (b : Block) (v : Byte) :
    (pushDigest b v).1.dlen.toNat = min (b.dlen.toNat + 1) 255 := by
  rw [pushDigest_dlen]
  split <;> bv_omega

/-- A pushed byte lands in the first free cell, and the cells past it were already zero (R124). -/
theorem bufferTailZero_push {b : Block} (hb : BufferTailZero b) (v : Byte) :
    BufferTailZero (pushDigest b v).1 := by
  intro j hj
  rw [pushDigest_dlen_toNat] at hj
  have hpast : b.dlen.toNat < j.val := by omega
  have hroom : b.dlen.toNat < 16 := by omega
  rw [pushDigest_dg, dif_pos hroom]
  change (b.dg.set b.dlen.toNat v hroom)[j.val] = 0#8
  rw [Vector.getElem_set_ne _ _ hpast.ne]
  exact hb j (by omega)

theorem blockInv_push {b : Block} (hi : BlockInv b) (v : Byte) :
    BlockInv (pushDigest b v).1 where
  bufferTail := bufferTailZero_push hi.bufferTail v
  faultFields := hi.faultFields
  results := nofun
  characters := hi.characters

theorem blockInv_dgclr {b : Block} (hi : BlockInv b) : BlockInv (dgclr b).1 where
  bufferTail j _ := by simp
  faultFields := hi.faultFields
  results := nofun
  characters := hi.characters

theorem blockInv_dglatch {b : Block} (hi : BlockInv b) : BlockInv (dglatch b).1 where
  bufferTail j hj := by simp at hj; omega
  faultFields := hi.faultFields
  results := nofun
  characters := hi.characters

theorem blockInv_clrf {b : Block} (hi : BlockInv b) : BlockInv (clrf b).1 where
  bufferTail := hi.bufferTail
  faultFields := ⟨fun _ => ⟨rfl, rfl⟩, nofun⟩
  results := hi.results
  characters := hi.characters

theorem blockInv_fpenc {b : Block} (hi : BlockInv b) : BlockInv (fpenc Config.packTail b).1 := by
  rcases fpenc_cases Config.packTail b with ⟨-, h⟩ | ⟨-, v, -, h⟩ | ⟨hlen, e, he, h⟩ <;> rw [h]
  · exact blockInv_raise hi _ _
  · exact blockInv_raise hi _ _
  · obtain ⟨p, hp⟩ := encodeDigest_fpc he
    exact {
      bufferTail := hi.bufferTail
      faultFields := hi.faultFields
      results := fun _ => ⟨hlen, he⟩
      characters := fun k => .inr (by rw [hp]; exact fingerprint_isHexCode p k) }

/-- The invariant does not speak of `H` and `M`. -/
theorem blockInv_with_h_m {b : Block} (hi : BlockInv b) (h : Vector Word 4) (m : Vector Word 16) :
    BlockInv { b with h := h, m := m } where
  bufferTail := hi.bufferTail
  faultFields := hi.faultFields
  results := hi.results
  characters := hi.characters

theorem blockInv_runCommand {b : Block} (hi : BlockInv b) (op : Opcode) :
    BlockInv (runCommand Config.packTail op b).1 := by
  cases op with
  | nop => exact hi
  | mdinit => exact blockInv_with_h_m hi iv b.m
  | mdcomp => exact blockInv_with_h_m hi (compress b.h b.m) b.m
  | dglatch => exact blockInv_dglatch hi
  | dgclr => exact blockInv_dgclr hi
  | fpenc => exact blockInv_fpenc hi
  | clrf => exact blockInv_clrf hi
  | sreset => exact blockInv_reset

theorem Transacts.keeps_blockInv {b : Block} {w : TWord} {a : Answer} (ht : Transacts b w a)
    (hi : BlockInv b) : BlockInv a.1 := by
  cases ht with
  | read addr d => exact hi
  | refused addr d e he => exact hi
  | writeH j d => exact blockInv_with_h_m hi (b.h.set j d) b.m
  | writeM j d => exact blockInv_with_h_m hi b.h (b.m.set j d)
  | push v => exact blockInv_push hi v
  | illegal d hf hd => exact blockInv_raise hi _ _
  | command op hf => exact blockInv_runCommand hi op

/-- Where the invariant holds, valid results are those of the present digest, so encoding it again does not
fault (R20). -/
theorem fpenc_okay_of_fpvalid {b : Block} (hi : BlockInv b) (hv : b.fpvalid = true) :
    (fpenc Config.packTail b).2 = .okay 0#32 := by
  obtain ⟨hlen, henc⟩ := hi.results hv
  rcases fpenc_cases Config.packTail b with ⟨hne, -⟩ | ⟨-, v, herr, -⟩ | ⟨-, e, -, h⟩
  · exact absurd hlen hne
  · rw [henc] at herr
    cases herr
  · rw [h]

end Sys2Proof.Machine

namespace Sys2Proof.StateProofs

open Sys2Proof.Machine Sys2Proof.Safety

/-- Settles O49, by cases on everything a step can do. -/
theorem stepKeepsInvariant : Obligations.StepKeepsInvariant := by
  intro s t hi h
  rcases step_transacts h with ⟨-, rfl⟩ | ⟨rest, -, rfl⟩ | ⟨w, rest, a, -, ha, rfl⟩
  · exact hi
  · exact blockInv_reset
  · exact ha.keeps_blockInv hi

/-- Settles O43: past the lockout only CLRF and SRESET reach the fault fields. -/
theorem latchedFaultIsHeld : Obligations.LatchedFaultIsHeld := by
  intro s t hf h h6 h7 hreset
  rcases step_transacts h with ⟨-, rfl⟩ | ⟨rest, hp, -⟩ | ⟨w, rest, a, hp, ha, rfl⟩
  · exact ⟨hf, rfl, rfl⟩
  · exact absurd (congrArg List.head? hp) hreset
  · refine ha.faultFields_of_latched hf ?_ ?_
    · rintro rfl
      exact h6 (congrArg List.head? hp)
    · rintro rfl
      exact h7 (congrArg List.head? hp)

/-- Settles O44, component by component from the transactions that write it. -/
theorem componentsChangeOnlyByTheirWriters : Obligations.ComponentsChangeOnlyByTheirWriters := by
  intro s t w hp h
  obtain ⟨r, ht⟩ := transacts_of_head hp h
  refine ⟨fun hc => ht.tWe_of_changed hc, fun hc => ?_, fun hc => ?_, fun hc => ?_, fun hc => ?_,
    fun hc => ?_⟩
  · rcases ht.h_writer hc with ⟨j, d, rfl⟩ | rfl | rfl | rfl
    · left
      rw [tAddr_mkT]
      exact address_h_range j
    all_goals right; simp [Opcode.word]
  · rcases ht.m_writer hc with ⟨j, d, rfl⟩ | rfl
    · left
      rw [tAddr_mkT]
      exact address_m_range j
    · right; simp [Opcode.word]
  · rcases ht.buffer_writer hc with ⟨v, rfl⟩ | rfl | rfl | rfl
    · left
      rw [tAddr_pushT, tData_pushT, BitVec.toNat_setWidth]
      exact ⟨rfl, by omega⟩
    all_goals right; simp [Opcode.word]
  · rcases ht.results_writer hc with rfl | rfl <;> simp [Opcode.word]
  · obtain ⟨d, rfl, hd⟩ := ht.faultFields_writer hc
    rw [tAddr_mkT, tData_mkT]
    exact ⟨rfl, hd⟩

/-- Settles O45, from who sets and who clears `FPVALID`; the hardware reset clears it too. -/
theorem resultValidityTracksBuffer : Obligations.ResultValidityTracksBuffer := by
  intro s t h
  rcases step_transacts h with ⟨-, rfl⟩ | ⟨rest, hp, rfl⟩ | ⟨w, rest, a, hp, ha, rfl⟩
  · exact ⟨fun h0 h1 => absurd h1 (by simp [h0]), fun hc => absurd hc (by simp),
      fun h1 h0 => absurd h0 (by simp [h1])⟩
  · have hreset : NextIsReset s := congrArg List.head? hp
    exact ⟨nofun, fun _ => rfl, fun _ _ => .inr (.inr (.inr (.inr hreset)))⟩
  · have hhead : s.pending.head? = some (.transaction w) := congrArg List.head? hp
    refine ⟨fun h0 h1 => ?_, ha.fpvalid_of_buffer_changed, fun h1 h0 => ?_⟩
    · obtain rfl := ha.fpvalid_setter h0 h1
      exact hhead
    · rcases ha.fpvalid_clearer h1 h0 with ⟨v, rfl⟩ | rfl | rfl | rfl
      · exact .inl ⟨v, hhead⟩
      · exact .inr (.inl hhead)
      · exact .inr (.inr (.inl hhead))
      · exact .inr (.inr (.inr (.inl hhead)))

/-- Settles O46: with `FPVALID = 1` the invariant gives an encoding, so FPENC would have answered OKAY. -/
theorem faultingFpencFindsResultsInvalid : Obligations.FaultingFpencFindsResultsInvalid := by
  intro s t c hi h hr
  cases h
  simp only [complete_responses, List.cons.injEq, and_true] at hr
  by_contra hv
  rcases unlessLocked_cases s.blk (fpenc Config.packTail) with ⟨-, hl⟩ | ⟨-, hl⟩ <;> rw [hl] at hr
  · cases hr
  · rw [fpenc_okay_of_fpvalid hi (by simpa using hv)] at hr
    cases hr

/-- Settles O47: all three ways lead to `Block.reset`, which is the list of R26. -/
theorem resetValues : Obligations.ResetValues :=
  ⟨Block.reset, rfl, rfl, fun _ _ => blk_of_reset, fun _ _ => blk_of_sreset⟩

/-- Settles O48: the invariant of the reset block, whatever the host port holds. -/
theorem invariantAtReset : Obligations.InvariantAtReset := fun _ _ => blockInv_reset

end Sys2Proof.StateProofs

/-! The transaction as the machine runs it is the one R80 writes over address ranges; then R50's fold, R41's
address map, R47 and the digest of the empty sequence (spec/20_memory.md). -/

namespace Sys2Proof.Machine

open Sys2Proof.Safety

/-! ### The address map (R41, R42, R45) -/

theorem regOfSlot_isSome : ∀ n < 33, (regOfSlot n).isSome := by decide

/-- An address names no register exactly when it is misaligned (R81) or past `ID` (R82). -/
theorem regAt_eq_none_iff (a : Addr) : regAt a = none ↔ a.toNat % 4 ≠ 0 ∨ 0x80 < a.toNat := by
  have haligned : a.extractLsb' 0 2 = 0#2 ↔ a.toNat % 4 = 0 := by
    simp [← BitVec.toNat_inj]
  unfold regAt
  split_ifs with hmis hpast
  · exact iff_of_true rfl (.inl fun h => hmis (haligned.mpr h))
  · exact iff_of_true rfl (.inr hpast)
  · have hmod : a.toNat % 4 = 0 := haligned.mp (not_not.mp hmis)
    have hsome := regOfSlot_isSome (a.toNat / 4) (by omega)
    refine iff_of_false (Option.isSome_iff_ne_none.mp hsome) ?_
    omega

/-! ### R80 over address ranges is the access of the register named -/

/-- Where no register is named, both of R80's first checks answer AccessError (R81, R82). -/
theorem transact_of_unnamed {tail : PackTail} {we : Bool} {a : Addr} {d : Word} {b : Block}
    (h : regAt a = none) : transact tail we a d b = b.accessError := by
  unfold transact
  rcases (regAt_eq_none_iff a).mp h with hmis | hpast
  · rw [if_pos hmis]
  · rw [if_pos hpast, ite_self]

theorem transact_read_address (tail : PackTail) (r : Reg) (d : Word) (b : Block) :
    transact tail false (address r) d b = busRead b (address r) := by
  rw [busRead, regAt_address]
  cases r with
  | h j | dgw j | m j => fin_cases j <;> rfl
  | _ => rfl

theorem transact_write_address (tail : PackTail) (r : Reg) (d : Word) (b : Block) :
    transact tail true (address r) d b = writeReg tail b d r := by
  cases r with
  | h j | dgw j | m j => fin_cases j <;> rfl
  | _ => rfl

theorem transact_read (tail : PackTail) (a : Addr) (d : Word) (b : Block) :
    transact tail false a d b = busRead b a := by
  cases hr : regAt a with
  | none => rw [transact_of_unnamed hr, busRead, hr]
  | some r => rw [eq_address_of_regAt hr, transact_read_address]

theorem transact_write (tail : PackTail) (a : Addr) (d : Word) (b : Block) :
    transact tail true a d b = busWrite tail b a d := by
  cases hr : regAt a with
  | none => rw [transact_of_unnamed hr, busWrite, hr]
  | some r => rw [eq_address_of_regAt hr, transact_write_address, busWrite, regAt_address]

/-- The machine runs a transaction as R80 writes it. -/
theorem exec_decodeT (w : TWord) (s : State) :
    exec (decodeT w) s = .next (s.complete (transactT Config.packTail w s.blk)) := by
  unfold decodeT transactT
  cases tWe w with
  | false => rw [transact_read]; rfl
  | true => rw [transact_write]; rfl

/-- The step that takes a transaction is R80's function on it, with its response in front. -/
theorem step_transaction {s : State} {w : TWord} {rest : List Input}
    (hp : s.pending = .transaction w :: rest) :
    step s = .next { blk := (transactT Config.packTail w s.blk).1, pending := rest,
                     responses := (transactT Config.packTail w s.blk).2 :: s.responses } := by
  have htake : step s = exec (decodeT w) { s with pending := rest } := by
    simp only [step, nextInput, hp]
  rw [htake, exec_decodeT]
  rfl

/-! ### Runs (R50) -/

theorem runsTo_zero (s : State) : RunsTo 0 s s := rfl

theorem runsTo_succ {k : Nat} {s t u : State} (hs : step s = .next t) (hr : RunsTo k t u) :
    RunsTo (k + 1) s u := by
  have hc : Sys2Proof.core.step s = .next t := hs
  simp only [RunsTo, Host.Core.run, hc]
  exact hr

/-- Each step takes one transaction, so its response stays behind those of the transactions after it (R50). -/
theorem runsTo_transactAll (ws : List TWord) (rest : List Input) (s : State)
    (hp : s.pending = ws.map Input.transaction ++ rest) :
    RunsTo ws.length s
      { blk := (transactAll Config.packTail ws s.blk).1, pending := rest,
        responses := (transactAll Config.packTail ws s.blk).2 ++ s.responses } := by
  induction ws generalizing s with
  | nil =>
    obtain ⟨b, p, q⟩ := s
    obtain rfl : p = rest := hp
    exact runsTo_zero _
  | cons w ws ih =>
    have hrun := runsTo_succ (step_transaction hp) (ih _ rfl)
    simpa [transactAll] using hrun

/-! ### Reads (R47) -/

/-- A read answers from the block and leaves it. -/
theorem exec_rd (addr : Addr) (s : State) :
    exec (.rd addr) s = answers s s.blk (busRead s.blk addr).2 := by
  have hexec : exec (.rd addr) s = .next (s.complete (busRead s.blk addr)) := rfl
  rw [hexec, State.complete, busRead_block]

/-! ### The digest of the empty byte sequence (R172, R106, R43 (b)) -/

/-- The one block of the padded empty message: `0x80` and zeros, with length 0 (R172). -/
def emptyMessageBlock : Vector Word 16 := (Vector.replicate 16 0#32).set 0 0x80#32

theorem md5_nil : md5 [] = compress iv emptyMessageBlock := by
  have hblocks : (blocksOf (pad [])).map (blockAt · 0) = [emptyMessageBlock] := by decide
  rw [md5, ← List.foldl_map (f := (blockAt · 0)) (g := compress), hblocks]
  rfl

/-- The steps of the compression can be run in stretches. -/
theorem md5Steps_add {m : Vector Word 16} {v u : Md5Vars} {n : Nat} (hu : md5Steps m v n = u)
    (k : Nat) : md5Steps m v (n + k) =
      (List.range k).foldl (fun x i => md5Step m (Fin.ofNat 64 (n + i)) x) u := by
  induction k with
  | zero => exact hu
  | succ k ih =>
    rw [← Nat.add_assoc, md5Steps_succ, ih, List.range_succ, List.foldl_append]
    rfl

/-- The working variables of a compression from `IV` (R106). -/
def ivVars : Md5Vars := { a := iv[0], b := iv[1], c := iv[2], d := iv[3] }

/-- Group by group of 16 steps (R104). -/
theorem md5Steps_emptyMessageBlock :
    md5Steps emptyMessageBlock ivVars 64 =
      { a := 0x7246fad3#32, b := 0x14e45506#32, c := 0xff4ea3eb#32, d := 0x6e10a476#32 } := by
  have h16 : md5Steps emptyMessageBlock ivVars 16 =
      { a := 0xf56c7cf1#32, b := 0xd6819c6a#32, c := 0x5aa53f75#32, d := 0x374943a7#32 } :=
    (md5Steps_add (md5Steps_zero _ _) 16).trans (by decide)
  have h32 : md5Steps emptyMessageBlock ivVars 32 =
      { a := 0x13707036#32, b := 0xa2205f1f#32, c := 0x1c31c384#32, d := 0xae7813db#32 } :=
    (md5Steps_add h16 16).trans (by decide)
  have h48 : md5Steps emptyMessageBlock ivVars 48 =
      { a := 0x3f55edfd#32, b := 0xca7d2dbd#32, c := 0x68d84ea2#32, d := 0x22a31f54#32 } :=
    (md5Steps_add h32 16).trans (by decide)
  exact (md5Steps_add h48 16).trans (by decide)

theorem compress_iv_emptyMessageBlock : compress iv emptyMessageBlock =
    #v[0xd98c1dd4#32, 0x04b2008f#32, 0x980980e9#32, 0x7e42f8ec#32] := by
  rw [compress_of_steps md5Steps_emptyMessageBlock]
  decide

end Sys2Proof.Machine

namespace Sys2Proof.MemoryProofs

open Sys2Proof.Machine Sys2Proof.Safety

/-- Settles O10, by induction on the transactions issued. -/
theorem issuedSequenceIsFold : Obligations.IssuedSequenceIsFold :=
  fun s ws rest hp => runsTo_transactAll ws rest s hp

/-- Settles O6: the map inverts `address` both ways and names nothing exactly off the map. -/
theorem addressMapIsExact : Obligations.AddressMapIsExact :=
  ⟨regAt_address, fun _ _ h => (eq_address_of_regAt h).symm, regAt_eq_none_iff⟩

/-- Settles O18: a read answers from the block alone, which is the same for the second read. -/
theorem readsHaveNoSideEffect : Obligations.ReadsHaveNoSideEffect := fun s addr =>
  ⟨(busRead s.blk addr).2, exec_rd addr s, exec_rd addr (afterAnswer s s.blk _)⟩

/-- Settles O53: one block, compressed from `IV`, then serialised low byte first. -/
theorem emptyMessageDigestBytes : Obligations.EmptyMessageDigestBytes := by
  have hraw : rawPrefix [] = [] := List.take_nil
  rw [Obligations.EmptyMessageDigestBytes, extractDigest, hraw, md5_nil,
    compress_iv_emptyMessageBlock]
  decide

end Sys2Proof.MemoryProofs

/-! The formats: decoding inverts encoding, T words, C words and S words as numbers, a command as a write to
`CMD`, and a block of the message loaded and compressed (spec/30_encoding.md). -/

namespace Sys2Proof.Machine

open Sys2Proof.Safety

/-! ### Decoding (R61, R62, R66, R68) -/

theorem instr_wf (i : Instr) : i.wf = true := by
  cases i <;> rfl

theorem decodeT_of_read {w : TWord} (h : tWe w = false) : decodeT w = .rd (tAddr w) := by
  simp [decodeT, h]

theorem decodeT_of_write {w : TWord} (h : tWe w = true) : decodeT w = .wr (tAddr w) (tData w) := by
  simp [decodeT, h]

/-- A read ignores its `wdata` (R62). -/
@[simp] theorem decodeT_mkT_false (addr : Addr) (d : Word) : decodeT (mkT false addr d) = .rd addr := by
  simp [decodeT]

@[simp] theorem decodeT_mkT_true (addr : Addr) (d : Word) : decodeT (mkT true addr d) = .wr addr d := by
  simp [decodeT]

theorem decode_word (op : Opcode) : decode (.c op.word) = .ok op.instr := by
  simp only [decode, ofWord_word]

theorem encode_instr (op : Opcode) : encode op.instr = .c op.word := by
  cases op <;> rfl

/-- What decoding a C word can do: the command whose word it is, or the rejection by name (R68). -/
theorem decode_c_cases (w : Word) :
    (∃ op : Opcode, w = op.word ∧ decode (.c w) = .ok op.instr) ∨
      (Opcode.ofWord w = none ∧ decode (.c w) = .error (.illegalCommand w)) := by
  cases h : Opcode.ofWord w with
  | none => exact .inr ⟨rfl, by simp only [decode, h]⟩
  | some op =>
    obtain rfl := word_of_ofWord h
    exact .inl ⟨op, rfl, decode_word op⟩

theorem word_toNat_le (op : Opcode) : op.word.toNat ≤ 7 := by
  cases op <;> decide

/-- Past the eight words of R66 nothing is a command (R68). -/
theorem decode_c_of_gt {w : Word} (h : 7 < w.toNat) :
    decode (.c w) = .error (.illegalCommand w) := by
  rcases decode_c_cases w with ⟨op, rfl, -⟩ | ⟨-, herr⟩
  · exact absurd (word_toNat_le op) (Nat.not_le.mpr h)
  · exact herr

theorem decode_encode (i : Instr) : decode (encode i) = .ok i := by
  cases i with
  | rd addr => exact congrArg Except.ok (decodeT_mkT_false addr 0#32)
  | wr addr d => exact congrArg Except.ok (decodeT_mkT_true addr d)
  | nop => exact decode_word .nop
  | mdinit => exact decode_word .mdinit
  | mdcomp => exact decode_word .mdcomp
  | dglatch => exact decode_word .dglatch
  | dgclr => exact decode_word .dgclr
  | fpenc => exact decode_word .fpenc
  | clrf => exact decode_word .clrf
  | sreset => exact decode_word .sreset

theorem encode_decodeT_of_write {w : TWord} (h : tWe w = true) : encode (decodeT w) = .t w := by
  rw [decodeT_of_write h, encode, ← h, mkT_fields]

theorem encode_decodeT_of_read {w : TWord} (h : tWe w = false) :
    encode (decodeT w) = .t (mkT false (tAddr w) 0#32) := by
  rw [decodeT_of_read h, encode]

theorem encode_of_decode_c {w : Word} {i : Instr} (h : decode (.c w) = .ok i) : encode i = .c w := by
  rcases decode_c_cases w with ⟨op, rfl, hok⟩ | ⟨-, herr⟩
  · obtain rfl : op.instr = i := Except.ok.inj (hok.symm.trans h)
    exact encode_instr op
  · rw [herr] at h
    cases h

/-! ### Numbers offered to the decoder (R60; log entry 7) -/

/-- Every T word fits the container of more than 32 bits, and is what is decoded there. -/
theorem decodeBits_toNat {nbits : Nat} (hn : 32 < nbits) (w : TWord) :
    decodeBits nbits w.toNat = .ok (decodeT w) := by
  have hfit : bitsFit nbits w.toNat = true := by
    simp [bitsFit, Nat.not_le.mpr hn, w.isLt]
  have hcode : codeWordOf nbits w.toNat = .ok (.t w) := by
    simp [codeWordOf, hfit, Nat.not_le.mpr hn]
  rw [decodeBits, hcode]
  rfl

/-- Every C word fits the container of up to 32 bits, and is what is decoded there. -/
theorem decodeBits_word_toNat {nbits : Nat} (hn : nbits ≤ 32) (w : Word) :
    decodeBits nbits w.toNat = decode (.c w) := by
  have hfit : bitsFit nbits w.toNat = true := by
    simp [bitsFit, hn, w.isLt]
  have hcode : codeWordOf nbits w.toNat = .ok (.c w) := by
    simp [codeWordOf, hfit, hn]
  rw [decodeBits, hcode]

theorem decodeTableWord_of_ok {nbits w : Nat} {i : Instr} (h : decodeBits nbits w = .ok i) :
    decodeTableWord nbits w = some i := by
  rw [decodeTableWord, h]

theorem decodeTableWord_of_error {nbits w : Nat} {e : DecodeError} (h : decodeBits nbits w = .error e) :
    decodeTableWord nbits w = none := by
  rw [decodeTableWord, h]

theorem decodeTableWord_transaction (w : TWord) : decodeTableWord 48 w.toNat = some (decodeT w) :=
  decodeTableWord_of_ok (decodeBits_toNat (by decide) w)

theorem decodeTableWord_command (op : Opcode) :
    decodeTableWord 32 op.word.toNat = some op.instr :=
  decodeTableWord_of_ok ((decodeBits_word_toNat le_rfl _).trans (decode_word op))

theorem decodeTableWord_illegal {w : Word} (h : 7 < w.toNat) : decodeTableWord 32 w.toNat = none :=
  decodeTableWord_of_error ((decodeBits_word_toNat le_rfl w).trans (decode_c_of_gt h))

/-! ### S words (R63, R64) -/

theorem ofCode_code (e : ErrorCode) : ErrorCode.ofCode e.code = some e := by
  cases e with
  | fault c => cases c <;> decide
  | accessError => decide
  | faultLocked => decide

theorem code_of_ofCode {c : BitVec 4} {e : ErrorCode} (h : ErrorCode.ofCode c = some e) :
    e.code = c := by
  unfold ErrorCode.ofCode at h
  split_ifs at h with h1 h2 h3 h4 h5 <;> cases h <;> symm <;> assumption

/-- The S word with the given fields (R63). -/
def mkS (err : Bool) (code : BitVec 4) (rdata : Word) : SWord :=
  BitVec.ofBool err ++ code ++ rdata

theorem mkS_toNat (e : Bool) (c : BitVec 4) (d : Word) :
    (mkS e c d).toNat = e.toNat * 2 ^ 36 + c.toNat * 2 ^ 32 + d.toNat := by
  rw [mkS, append_toNat, append_toNat, BitVec.toNat_ofBool]
  omega

/-- An S word is its three fields. -/
theorem mkS_fields (w : SWord) : mkS (sErr w) (sCode w) (sData w) = w := sWord_fields w

@[simp] theorem sErr_mkS (e : Bool) (c : BitVec 4) (d : Word) : sErr (mkS e c d) = e := by
  rw [sErr, mkS, BitVec.getLsbD_append, BitVec.getLsbD_append]
  simp

@[simp] theorem sCode_mkS (e : Bool) (c : BitVec 4) (d : Word) : sCode (mkS e c d) = c := by
  apply BitVec.eq_of_toNat_eq
  rw [sCode, BitVec.extractLsb'_toNat, mkS_toNat, Nat.shiftRight_eq_div_pow]
  omega

@[simp] theorem sData_mkS (e : Bool) (c : BitVec 4) (d : Word) : sData (mkS e c d) = d := by
  apply BitVec.eq_of_toNat_eq
  rw [sData, BitVec.extractLsb'_toNat, mkS_toNat, Nat.shiftRight_eq_div_pow]
  omega

theorem sWord_okay (v : Word) : (Response.okay v).sWord = mkS false 0#4 v := rfl

theorem sWord_error (e : ErrorCode) : (Response.error e).sWord = mkS true e.code 0#32 := rfl

theorem sWord_okay_toNat (v : Word) : (Response.okay v).sWord.toNat = v.toNat := by
  simp [sWord_okay, mkS_toNat]

theorem sWord_error_toNat (e : ErrorCode) :
    (Response.error e).sWord.toNat = 2 ^ 36 + e.code.toNat * 2 ^ 32 := by
  simp [sWord_error, mkS_toNat]

theorem ofSWord_sWord (r : Response) : Response.ofSWord r.sWord = some r := by
  cases r with
  | okay v => simp [Response.ofSWord, sWord_okay]
  | error e => simp [Response.ofSWord, sWord_error, ofCode_code]

/-- What an S word that decodes holds: the fields of an OKAY or those of an ERROR. -/
theorem ofSWord_cases {w : SWord} {r : Response} (h : Response.ofSWord w = some r) :
    (sErr w = true ∧ sData w = 0#32 ∧ ∃ e, ErrorCode.ofCode (sCode w) = some e ∧ r = .error e) ∨
      (sErr w = false ∧ sCode w = 0#4 ∧ r = .okay (sData w)) := by
  unfold Response.ofSWord at h
  split_ifs at h with herr hdata hcode
  · obtain ⟨e, he, rfl⟩ := Option.map_eq_some_iff.mp h
    exact .inl ⟨herr, hdata, e, he, rfl⟩
  · exact .inr ⟨Bool.eq_false_iff.mpr herr, hcode, (Option.some.inj h).symm⟩

theorem sWord_of_ofSWord {w : SWord} {r : Response} (h : Response.ofSWord w = some r) :
    r.sWord = w := by
  rcases ofSWord_cases h with ⟨herr, hdata, e, he, rfl⟩ | ⟨herr, hcode, rfl⟩
  · rw [sWord_error, code_of_ofCode he, ← herr, ← hdata, mkS_fields]
  · rw [sWord_okay, ← herr, ← hcode, mkS_fields]

/-! ### A command is the write of its word to `CMD` (R66, R72, R84) -/

theorem exec_wr_cmd (d : Word) (s : State) :
    exec (.wr 0x00#8 d) s = .next (s.complete (writeCmd Config.packTail s.blk d)) := rfl

/-- CLRF and SRESET come before the lockout, which holds for the six others (R84, R203). -/
theorem writeCmd_word (tail : PackTail) (b : Block) {op : Opcode} (h6 : op ≠ .clrf)
    (h7 : op ≠ .sreset) : writeCmd tail b op.word = b.unlessLocked (runCommand tail op) := by
  cases op with
  | clrf => exact absurd rfl h6
  | sreset => exact absurd rfl h7
  | _ => rfl

theorem exec_instr {op : Opcode} (h6 : op ≠ .clrf) (h7 : op ≠ .sreset) (s : State) :
    exec op.instr s = .next (s.complete (s.blk.unlessLocked (runCommand Config.packTail op))) := by
  cases op with
  | clrf => exact absurd rfl h6
  | sreset => exact absurd rfl h7
  | _ => rfl

theorem exec_wr_word (op : Opcode) (s : State) : exec (.wr 0x00#8 op.word) s = exec op.instr s := by
  by_cases h6 : op = .clrf
  · subst h6; rfl
  by_cases h7 : op = .sreset
  · subst h7; rfl
  rw [exec_wr_cmd, writeCmd_word _ _ h6 h7, exec_instr h6 h7]

theorem writeCmd_word_of_clear (tail : PackTail) (op : Opcode) {b : Block} (hf : b.fault = false) :
    writeCmd tail b op.word = runCommand tail op b := by
  by_cases h6 : op = .clrf
  · subst h6; rfl
  by_cases h7 : op = .sreset
  · subst h7; rfl
  rw [writeCmd_word tail b h6 h7, unlessLocked_of_clear _ hf]

/-! ### Transactions of the host (R50, R72) -/

theorem transactT_write_address (tail : PackTail) (r : Reg) (d : Word) (b : Block) :
    transactT tail (mkT true (address r) d) b = writeReg tail b d r := by
  rw [transactT, tWe_mkT, tAddr_mkT, tData_mkT, transact_write_address]

/-- While no fault is latched, a command's transaction runs the command. -/
theorem transactT_commandT (tail : PackTail) (op : Opcode) {b : Block} (hf : b.fault = false) :
    transactT tail (commandT op) b = runCommand tail op b := by
  rw [commandT, transactT_write_address, writeReg, writeCmd_word_of_clear tail op hf]

theorem transactAll_cons_block (tail : PackTail) (w : TWord) (ws : List TWord) (b : Block) :
    (transactAll tail (w :: ws) b).1 = (transactAll tail ws (transactT tail w b).1).1 := rfl

theorem transactAll_append_block (tail : PackTail) (ws vs : List TWord) (b : Block) :
    (transactAll tail (ws ++ vs) b).1 = (transactAll tail vs (transactAll tail ws b).1).1 := by
  induction ws generalizing b with
  | nil => rfl
  | cons w ws ih => exact ih _

theorem writeWords_length (a : Addr) (ws : List Word) : (writeWords a ws).length = ws.length := by
  induction ws generalizing a with
  | nil => rfl
  | cons w ws ih => rw [writeWords, List.length_cons, List.length_cons, ih]

/-! ### A block of the message loaded and compressed (R72 `LDBLKB`, R106) -/

/-- The message register behind `M[n]` is one word further (R41). -/
theorem address_m_succ (n : Nat) :
    0x40#8 + 4#8 * BitVec.ofNat 8 n + 4#8 = 0x40#8 + 4#8 * BitVec.ofNat 8 (n + 1) := by
  rw [BitVec.ofNat_add, BitVec.mul_add, BitVec.add_assoc]
  rfl

/-- Words written from `M[n]` on replace those registers, and nothing else of the block changes. -/
theorem transactAll_writeWords_m (tail : PackTail) (ws : List Word) (n : Nat) (b : Block)
    (hn : n + ws.length ≤ 16) :
    ∃ m : Vector Word 16,
      (transactAll tail (writeWords (0x40#8 + 4#8 * BitVec.ofNat 8 n) ws) b).1 = { b with m := m } ∧
      ∀ i : Fin 16, m[i] = if n ≤ i.val then ws[i.val - n]?.getD b.m[i] else b.m[i] := by
  induction ws generalizing n b with
  | nil => exact ⟨b.m, rfl, fun i => by simp⟩
  | cons w ws ih =>
    rw [List.length_cons] at hn
    have hlt : n < 16 := by omega
    have hstore : transactT tail (mkT true (0x40#8 + 4#8 * BitVec.ofNat 8 n) w) b =
        { b with m := b.m.set n w }.done := transactT_write_address tail (.m ⟨n, hlt⟩) w b
    obtain ⟨m, hblk, hm⟩ := ih (n + 1) { b with m := b.m.set n w } (by omega)
    refine ⟨m, ?_, fun i => ?_⟩
    · rw [writeWords, transactAll_cons_block, hstore, address_m_succ, done_block, hblk]
    · rw [hm i]
      rcases Nat.lt_trichotomy i.val n with hi | hi | hi
      · simp [Nat.not_le.mpr hi, hi.ne', show ¬ n + 1 ≤ i.val by omega]
      · simp [hi]
      · have hset : (b.m.set n w)[i] = b.m[i] := Vector.getElem_set_ne hlt i.isLt hi.ne
        rw [hset, if_pos (Nat.succ_le_of_lt hi), if_pos hi.le,
          show i.val - n = i.val - (n + 1) + 1 by omega, List.getElem?_cons_succ]

/-- Sixteen words written from `M[0]` on are the new message block. -/
theorem transactAll_writeWords_block (tail : PackTail) (m : Vector Word 16) (b : Block) :
    (transactAll tail (writeWords (address (.m 0)) m.toList) b).1 = { b with m := m } := by
  obtain ⟨m', hblk, hm⟩ := transactAll_writeWords_m tail m.toList 0 b (by simp)
  obtain rfl : m' = m := Vector.ext fun i hi => by
    simpa [hi] using hm ⟨i, hi⟩
  exact hblk

/-- The transactions that load 64 bytes and compress them. -/
abbrev loadCompress (bytes : List Byte) : List TWord :=
  assemble [.ldblkb bytes, .command .mdcomp]

theorem loadCompress_eq (bytes : List Byte) : loadCompress bytes =
    writeWords (address (.m 0)) (blockAt bytes 0).toList ++ [commandT .mdcomp] := by
  simp [loadCompress, assemble, expand]

theorem loadCompress_length (bytes : List Byte) : (loadCompress bytes).length = 17 := by
  rw [loadCompress_eq, List.length_append, writeWords_length, Vector.length_toList]
  rfl

theorem transactAll_loadCompress (tail : PackTail) (bytes : List Byte) {b : Block}
    (hf : b.fault = false) : (transactAll tail (loadCompress bytes) b).1 =
      { b with m := blockAt bytes 0, h := compress b.h (blockAt bytes 0) } := by
  have hcomp : transactT tail (commandT .mdcomp) { b with m := blockAt bytes 0 } =
      mdcomp { b with m := blockAt bytes 0 } := transactT_commandT tail .mdcomp hf
  rw [loadCompress_eq, transactAll_append_block, transactAll_writeWords_block,
    transactAll_cons_block, hcomp]
  rfl

theorem byteAt_eq_getElem! (bs : List Byte) (n : Nat) : byteAt bs n = bs[n]! := by
  rw [byteAt, List.getElem!_eq_getElem?_getD]
  rfl

/-- Message word `j` holds bytes `4j` to `4j+3`, low byte first (R43 (a)). -/
theorem wordByte_blockAt (bs : List Byte) (j : Fin 16) (k : Fin 4) :
    wordByte (blockAt bs 0)[j] k.val = byteAt bs (4 * j.val + k.val) := by
  have hword : (blockAt bs 0)[j] = messageWordAt bs 0 j.val := by simp [blockAt]
  rw [hword, messageWordAt, Nat.zero_add]
  obtain ⟨h0, h1, h2, h3⟩ := wordByte_wordOfBytes (byteAt bs (4 * j.val)) (byteAt bs (4 * j.val + 1))
    (byteAt bs (4 * j.val + 2)) (byteAt bs (4 * j.val + 3))
  fin_cases k <;> assumption

/-- Nothing is pending before, so the transactions issued are all that runs. -/
theorem runsTo_issue {s : State} (hp : s.pending = []) (ws : List TWord) :
    RunsTo ws.length (s.issue ws)
      { blk := (transactAll Config.packTail ws s.blk).1, pending := [],
        responses := (transactAll Config.packTail ws s.blk).2 ++ s.responses } :=
  runsTo_transactAll ws [] (s.issue ws) (by simp [State.issue, hp])

end Sys2Proof.Machine

namespace Sys2Proof.EncodingProofs

open Sys2Proof.Machine Sys2Proof.Safety

/-- Settles O1; only a read loses something, its `wdata`. -/
theorem decodeEncodeRoundTrip : Obligations.DecodeEncodeRoundTrip :=
  ⟨fun i _ => decode_encode i, fun _ => encode_decodeT_of_write, fun _ => encode_decodeT_of_read,
    fun _ _ => encode_of_decode_c⟩

/-- Settles O2: the number is that of a T word, and every T word is decoded from its number. -/
theorem transactionNumberDecodes : Obligations.TransactionNumberDecodes := by
  intro addr d
  have hread : (mkT false addr d).toNat = addr.toNat * 2 ^ 32 + d.toNat := by
    simp [mkT_toNat]
  have hwrite : (mkT true addr d).toNat = 2 ^ 40 + addr.toNat * 2 ^ 32 + d.toNat := by
    simp [mkT_toNat]
  refine ⟨hread, hwrite, ?_, ?_, rfl, rfl⟩
  · rw [← hread, decodeBits_toNat (by decide), decodeT_mkT_false]
  · rw [← hwrite, decodeBits_toNat (by decide), decodeT_mkT_true]

/-- Settles O5: the three fields make the S word, and the code determines the error. -/
theorem responseWordRoundTrip : Obligations.ResponseWordRoundTrip :=
  ⟨ofSWord_sWord, fun _ _ => sWord_of_ofSWord, sWord_okay_toNat, sWord_error_toNat _,
    sWord_error_toNat _, sWord_error_toNat _, sWord_error_toNat _, sWord_error_toNat _⟩

/-- Settles O51: the run is the fold of the 17 transactions, sixteen stores and MDCOMP. -/
theorem blockLoadedAndCompressed : Obligations.BlockLoadedAndCompressed := by
  intro s bytes _ hf hp
  have hlen : (loadCompress bytes).length = 17 := loadCompress_length bytes
  have hblk := transactAll_loadCompress Config.packTail bytes hf
  have hrun := runsTo_issue hp (loadCompress bytes)
  rw [hlen, hblk] at hrun
  refine ⟨hlen, _, hrun, rfl, rfl, fun j k => ?_⟩
  rw [← byteAt_eq_getElem!, ← wordByte_blockAt, wordByte_toNat]

/-- Settles O3: every command decodes from its own word, and none has a word above 7. -/
theorem commandWordsAreZeroToSeven : Obligations.CommandWordsAreZeroToSeven :=
  ⟨decode_word .nop, decode_word .mdinit, decode_word .mdcomp, decode_word .dglatch,
    decode_word .dgclr, decode_word .fpenc, decode_word .clrf, decode_word .sreset,
    fun _ => decode_c_of_gt⟩

/-- Settles O4: each number is that of a T word or a C word, decoded as such. -/
theorem writtenWordsDecode : Obligations.WrittenWordsDecode :=
  ⟨decodeTableWord_transaction (mkT false 0x80#8 0#32),
    decodeTableWord_transaction (mkT true 0x7C#8 0xDEADBEEF#32),
    decodeTableWord_command .nop, decodeTableWord_command .mdinit,
    decodeTableWord_command .mdcomp, decodeTableWord_command .dglatch,
    decodeTableWord_command .dgclr, decodeTableWord_command .fpenc,
    decodeTableWord_command .clrf, decodeTableWord_command .sreset,
    decodeTableWord_illegal (w := 0x00000106#32) (by decide)⟩

/-- Settles O7: every T word decodes, and the step takes the oldest input. -/
theorem stepRunsDecodedTransaction : Obligations.StepRunsDecodedTransaction := by
  intro s w rest hp
  have htake : step s = exec (decodeT w) { s with pending := rest } := by
    simp only [step, nextInput, hp]
  exact ⟨instr_wf _, rfl, htake⟩

/-- Settles O21, through the dispatch of a write to `CMD`. -/
theorem cmdWriteRunsCommand : Obligations.CmdWriteRunsCommand := fun s op => exec_wr_word op s

end Sys2Proof.EncodingProofs

/-! The bus accesses: what a step does with each kind of input, what RD and WR of a named register do, and the
words read as numbers (spec/40_bus_access.md). -/

namespace Sys2Proof.Machine

open Sys2Proof.Safety

/-! ### One step for each kind of input (R50, R80, R215, R221) -/

theorem step_idle {s : State} (hp : s.pending = []) : step s = .next s := by
  simp only [step, nextInput, hp]

theorem step_hardwareReset {s : State} {rest : List Input} (hp : s.pending = .hardwareReset :: rest) :
    step s = .next { blk := Block.reset, pending := rest, responses := s.responses } := by
  simp only [step, nextInput, hp, State.hardwareReset]

/-- The step is total (R80). -/
theorem step_next (s : State) : ∃ t, step s = .next t := by
  rcases hp : s.pending with _ | ⟨_ | _, rest⟩
  · exact ⟨_, step_idle hp⟩
  · exact ⟨_, step_transaction hp⟩
  · exact ⟨_, step_hardwareReset hp⟩

theorem safeFor (k : Nat) (s : State) : SafeFor k s := by
  induction k generalizing s with
  | zero => exact ⟨s, runsTo_zero s⟩
  | succ k ih =>
    obtain ⟨t, hs⟩ := step_next s
    obtain ⟨u, hr⟩ := ih t
    exact ⟨u, runsTo_succ hs hr⟩

/-! ### Addresses of the register arrays (R41) -/

theorem ofNat_add_four_mul (base j : Nat) :
    BitVec.ofNat 8 (base + 4 * j) = BitVec.ofNat 8 base + 4#8 * BitVec.ofNat 8 j := by
  rw [BitVec.ofNat_add, BitVec.ofNat_mul]

theorem ofNat_eq_address_h (j : Fin 4) : BitVec.ofNat 8 (0x10 + 4 * j.val) = address (.h j) :=
  ofNat_add_four_mul 0x10 j

theorem ofNat_eq_address_dgw (j : Fin 4) : BitVec.ofNat 8 (0x20 + 4 * j.val) = address (.dgw j) :=
  ofNat_add_four_mul 0x20 j

theorem ofNat_eq_address_m (j : Fin 16) : BitVec.ofNat 8 (0x40 + 4 * j.val) = address (.m j) :=
  ofNat_add_four_mul 0x40 j

/-! ### RD and WR of a named register (R80 to R90) -/

/-- A readable register answers its word, whatever `FAULT` and `FPVALID` are. -/
theorem exec_rd_address {r : Reg} {v : Word} {s : State} (hv : s.blk.read r = some v) :
    exec (.rd (address r)) s = answers s s.blk (.okay v) := by
  simp only [exec_rd, busRead, regAt_address, hv]

/-- A register without a read value refuses the read (R83). -/
theorem exec_rd_address_refused {r : Reg} {s : State} (hv : s.blk.read r = none) :
    exec (.rd (address r)) s = answers s s.blk (.error .accessError) := by
  simp only [exec_rd, busRead, regAt_address, hv, accessError_response]

theorem exec_wr (addr : Addr) (d : Word) (s : State) :
    exec (.wr addr d) s = .next (s.complete (busWrite Config.packTail s.blk addr d)) := rfl

theorem exec_wr_address (r : Reg) (d : Word) (s : State) :
    exec (.wr (address r) d) s = .next (s.complete (writeReg Config.packTail s.blk d r)) := by
  rw [exec_wr, busWrite, regAt_address]

/-! ### Accesses that are refused (R81 to R83) -/

/-- An address that names no register refuses both directions (R81, R82). -/
theorem exec_unnamed {addr : Addr} (hr : regAt addr = none) (v : Word) (s : State) :
    exec (.rd addr) s = answers s s.blk (.error .accessError) ∧
      exec (.wr addr v) s = answers s s.blk (.error .accessError) := by
  constructor
  · simp only [exec_rd, busRead, hr, accessError_response]
  · rw [exec_wr, busWrite, hr]
    rfl

/-- The registers that can only be written (R41). -/
def writeOnlyRegs : List Reg := [.cmd, .dgpush]

/-- The registers that can only be read (R41). -/
def readOnlyRegs : List Reg :=
  [.status, .dglen, .dgw 0, .dgw 1, .dgw 2, .dgw 3, .rnib, .pk, .fp0, .fp1, .id]

theorem read_eq_none_iff (b : Block) (r : Reg) : b.read r = none ↔ r ∈ writeOnlyRegs := by
  cases r <;> simp [Block.read, writeOnlyRegs]

theorem writeReg_of_readOnly (tail : PackTail) (b : Block) (d : Word) {r : Reg}
    (hr : r ∈ readOnlyRegs) : writeReg tail b d r = b.accessError := by
  cases r with
  | cmd | dgpush | h j | m j => simp [readOnlyRegs] at hr
  | _ => rfl

/-- An address whose number is one of the registers' addresses is the address of that register. -/
theorem exists_address_of_mem {a : Addr} {rs : List Reg}
    (h : a.toNat ∈ rs.map fun r => (address r).toNat) : ∃ r ∈ rs, a = address r := by
  obtain ⟨r, hr, ha⟩ := List.mem_map.mp h
  exact ⟨r, hr, (BitVec.eq_of_toNat_eq ha).symm⟩

/-! ### The words read as numbers (R87 to R90) -/

/-- A field placed above the bits of another word adds to it. -/
theorem shiftLeft_or_toNat {x y : Word} {k : Nat} (hx : x.toNat * 2 ^ k < 2 ^ 32)
    (hy : y.toNat < 2 ^ k) : (x <<< k ||| y).toNat = x.toNat * 2 ^ k + y.toNat := by
  rw [BitVec.toNat_or, BitVec.toNat_shiftLeft, Nat.shiftLeft_eq, Nat.mod_eq_of_lt hx,
    ← Nat.shiftLeft_eq, Nat.shiftLeft_add_eq_or_of_lt hy]

theorem flagWord_toNat (f : Bool) : (flagWord f).toNat = if f then 1 else 0 := by
  cases f <;> rfl

theorem flagWord_toNat_le (f : Bool) : (flagWord f).toNat ≤ 1 := by
  cases f <;> decide

/-- The fields of `STATUS` do not overlap, so the word is their sum (R18, R87). -/
theorem status_toNat_fields (b : Block) : b.status.toNat =
    b.info.toNat * 2 ^ 16 + (b.cause.toNat * 2 ^ 8 + ((flagWord b.dgFull).toNat * 2 ^ 2 +
      ((flagWord b.fpvalid).toNat * 2 ^ 1 + (flagWord b.fault).toNat))) := by
  have hinfo : (b.info.setWidth 32).toNat = b.info.toNat := BitVec.toNat_setWidth_of_le (by decide)
  have hcause : (b.cause.setWidth 32).toNat = b.cause.toNat :=
    BitVec.toNat_setWidth_of_le (by decide)
  have hinfoLt := b.info.isLt
  have hcauseLt := b.cause.isLt
  have hfull := flagWord_toNat_le b.dgFull
  have hvalid := flagWord_toNat_le b.fpvalid
  have hfault := flagWord_toNat_le b.fault
  have h1 := shiftLeft_or_toNat (x := flagWord b.fpvalid) (y := flagWord b.fault) (k := 1)
    (by omega) (by omega)
  have h2 := shiftLeft_or_toNat (x := flagWord b.dgFull) (k := 2) (by omega)
    (h1.trans_lt (by omega))
  have h8 := shiftLeft_or_toNat (x := b.cause.setWidth 32) (k := 8) (by omega)
    (h2.trans_lt (by omega))
  have h16 := shiftLeft_or_toNat (x := b.info.setWidth 32) (k := 16) (by omega)
    (h8.trans_lt (by omega))
  rw [Block.status, BitVec.or_assoc, BitVec.or_assoc, BitVec.or_assoc, h16, h8, h2, h1, hinfo, hcause]

theorem dgFull_iff (b : Block) : b.dgFull = true ↔ b.dlen.toNat = 16 := by
  simp [Block.dgFull, ← BitVec.toNat_inj]

theorem status_toNat (b : Block) : b.status.toNat =
    b.info.toNat * 2 ^ 16 + b.cause.toNat * 2 ^ 8 + (if b.dlen.toNat = 16 then 4 else 0) +
      (if b.fpvalid then 2 else 0) + (if b.fault then 1 else 0) := by
  rw [status_toNat_fields]
  simp only [flagWord_toNat, dgFull_iff]
  split_ifs <;> omega

/-! ### The lockout and the message block (R86, R203) -/

/-- What a command keeps, it keeps behind the lockout. -/
theorem unlessLocked_keeps {α : Type} (field : Block → α) {b : Block} {f : Block → Answer}
    (hf : field (f b).1 = field b) : field (b.unlessLocked f).1 = field b := by
  rcases unlessLocked_cases b f with ⟨-, h⟩ | ⟨-, h⟩ <;> rw [h]
  exact hf

end Sys2Proof.Machine

namespace Sys2Proof.BusAccessProofs

open Sys2Proof.Machine Sys2Proof.Safety

/-- Settles O9: `exec` of the decoded T word is R80's function on its fields. -/
theorem stepRefinesTransact : Obligations.StepRefinesTransact :=
  fun _ _ _ hp => step_transaction hp

/-- Settles O12, by induction on the number of steps. -/
theorem noRunStops : Obligations.NoRunStops := safeFor

/-- Settles O15: the fields of `STATUS` do not overlap. -/
theorem statusWordRead : Obligations.StatusWordRead := fun s =>
  ⟨s.blk.status, exec_rd_address (r := .status) rfl, status_toNat s.blk,
    ⟨s.blk.dlen.setWidth 32, exec_rd_address (r := .dglen) rfl,
      BitVec.toNat_setWidth_of_le (by decide)⟩,
    exec_rd_address (r := .id) rfl⟩

/-- Settles O16, from the number of a word of four bytes. -/
theorem digestWordRead : Obligations.DigestWordRead := by
  intro s j
  rw [ofNat_eq_address_dgw]
  exact ⟨s.blk.digestWord j, exec_rd_address rfl, wordOfBytes_toNat _ _ _ _⟩

/-- Settles O17: no read asks for `FPVALID`, and extending with zeros keeps the number. -/
theorem resultRegisterRead : Obligations.ResultRegisterRead := fun s =>
  ⟨s.blk.rnib.setWidth 32, s.blk.pk.setWidth 32,
    wordOfBytes s.blk.fpc[0] s.blk.fpc[1] s.blk.fpc[2] s.blk.fpc[3], s.blk.fpc[4].setWidth 32,
    exec_rd_address (r := .rnib) rfl, BitVec.toNat_setWidth_of_le (by decide),
    exec_rd_address (r := .pk) rfl, BitVec.toNat_setWidth_of_le (by decide),
    exec_rd_address (r := .fp0) rfl, wordOfBytes_toNat _ _ _ _,
    exec_rd_address (r := .fp1) rfl, BitVec.toNat_setWidth_of_le (by decide)⟩

/-- Settles O19: the address names no register, or one without that direction. -/
theorem badAccessesAreRefused : Obligations.BadAccessesAreRefused := by
  intro s addr v
  refine ⟨fun hmis => ?_, fun _ hpast => ?_, fun hmem => ?_, fun hmem => ?_⟩
  · exact exec_unnamed ((regAt_eq_none_iff addr).mpr (.inl hmis)) v s
  · exact exec_unnamed ((regAt_eq_none_iff addr).mpr (.inr (by omega))) v s
  · obtain ⟨r, hr, rfl⟩ := exists_address_of_mem (rs := writeOnlyRegs) hmem
    exact exec_rd_address_refused ((read_eq_none_iff s.blk r).mpr hr)
  · obtain ⟨r, hr, rfl⟩ := exists_address_of_mem (rs := readOnlyRegs) hmem
    rw [exec_wr_address, writeReg_of_readOnly _ _ _ hr]
    rfl

/-- Settles O11, by cases on the next input. -/
theorem everyTransactionIsAnsweredOnce : Obligations.EveryTransactionIsAnsweredOnce := by
  intro s
  rcases hp : s.pending with _ | ⟨w | _, rest⟩
  · exact ⟨s, step_idle hp, hp, nofun, fun _ => rfl⟩
  · exact ⟨_, step_transaction hp, rfl, fun _ _ => ⟨_, rfl⟩, fun hno => absurd rfl (hno w)⟩
  · exact ⟨_, step_hardwareReset hp, rfl, nofun, fun _ => rfl⟩

/-- Settles O13: neither access asks for `FAULT`. -/
theorem chainingRegisterAccess : Obligations.ChainingRegisterAccess := by
  intro s j v
  rw [ofNat_eq_address_h]
  exact ⟨exec_rd_address rfl, exec_wr_address (.h j) v s⟩

/-- Settles O14: the accesses as for `H`, and none of the three commands writes `M`, locked out or not. -/
theorem messageRegisterAccess : Obligations.MessageRegisterAccess := by
  refine ⟨fun s t i hi ht => ?_, fun s j v => ?_⟩
  · rcases hi with rfl | rfl | rfl <;> cases ht
    · exact unlessLocked_keeps Block.m (mdcomp_m s.blk)
    · exact unlessLocked_keeps Block.m (mdinit_m s.blk)
    · exact unlessLocked_keeps Block.m (dglatch_m s.blk)
  · rw [ofNat_eq_address_m]
    exact ⟨exec_rd_address rfl, exec_wr_address (.m j) v s⟩

end Sys2Proof.BusAccessProofs

/-! MD5: the commands MDINIT and MDCOMP behind the lockout, the rotation, and the 64 steps group by group
(spec/41_md5.md). -/

namespace Sys2Proof.Machine

open Sys2Proof.Safety

/-! ### A command, locked out and not (R203) -/

theorem exec_instr_of_fault {op : Opcode} (h6 : op ≠ .clrf) (h7 : op ≠ .sreset) {s : State}
    (hf : s.blk.fault = true) : exec op.instr s = answers s s.blk (.error .faultLocked) := by
  rw [exec_instr h6 h7, unlessLocked_of_fault _ hf]
  rfl

theorem exec_instr_of_clear {op : Opcode} (h6 : op ≠ .clrf) (h7 : op ≠ .sreset) {s : State}
    (hf : s.blk.fault = false) :
    exec op.instr s = .next (s.complete (runCommand Config.packTail op s.blk)) := by
  rw [exec_instr h6 h7, unlessLocked_of_clear _ hf]

theorem exec_mdcomp_of_fault {s : State} (hf : s.blk.fault = true) :
    exec .mdcomp s = answers s s.blk (.error .faultLocked) :=
  exec_instr_of_fault (op := .mdcomp) nofun nofun hf

theorem exec_mdcomp_of_clear {s : State} (hf : s.blk.fault = false) :
    exec .mdcomp s =
      answers s { s.blk with h := compress s.blk.h s.blk.m } (.okay 0#32) :=
  exec_instr_of_clear (op := .mdcomp) nofun nofun hf

/-! ### The rotation (R7, R107) -/

/-- A bit that stays below bit 32 moves up by `s`; one that would pass it comes back in at the bottom. -/
theorem rotateLeft_getLsbD_add_mod (v : Word) {s p : Nat} (hs : s < 32) (hp : p < 32) :
    (v.rotateLeft s).getLsbD ((p + s) % 32) = v.getLsbD p := by
  rw [BitVec.getLsbD_rotateLeft, Nat.mod_eq_of_lt hs]
  rcases Nat.lt_or_ge (p + s) 32 with hstay | hwrap
  · have hge : ¬ p + s < s := by omega
    simp [Nat.mod_eq_of_lt hstay, hge, hstay]
  · have hmod : (p + s) % 32 = p + s - 32 := by omega
    have hlt : p + s - 32 < s := by omega
    have hback : 32 - s + (p + s - 32) = p := by omega
    simp [hmod, hlt, hback]

/-! ### One step, group by group (R104, R105, R106) -/

theorem rotationAmount_groups (i : Fin 64) :
    (i.val < 16 → rotationAmount i = [7, 12, 17, 22][i.val % 4]!) ∧
    (16 ≤ i.val → i.val < 32 → rotationAmount i = [5, 9, 14, 20][i.val % 4]!) ∧
    (32 ≤ i.val → i.val < 48 → rotationAmount i = [4, 11, 16, 23][i.val % 4]!) ∧
    (48 ≤ i.val → rotationAmount i = [6, 10, 15, 21][i.val % 4]!) := by
  revert i
  decide

theorem messageWord_groups (i : Fin 64) :
    (i.val < 16 → messageWord i = Fin.ofNat 16 i.val) ∧
    (16 ≤ i.val → i.val < 32 → messageWord i = Fin.ofNat 16 (5 * i.val + 1)) ∧
    (32 ≤ i.val → i.val < 48 → messageWord i = Fin.ofNat 16 (3 * i.val + 5)) ∧
    (48 ≤ i.val → messageWord i = Fin.ofNat 16 (7 * i.val)) := by
  revert i
  decide

theorem roundFunction_groups (i : Fin 64) (b c d : Word) :
    (i.val < 16 → roundFunction i b c d = (b &&& c) ||| (~~~b &&& d)) ∧
    (16 ≤ i.val → i.val < 32 → roundFunction i b c d = (d &&& b) ||| (~~~d &&& c)) ∧
    (32 ≤ i.val → i.val < 48 → roundFunction i b c d = b ^^^ c ^^^ d) ∧
    (48 ≤ i.val → roundFunction i b c d = c ^^^ (b ||| ~~~d)) := by
  unfold roundFunction
  split_ifs with h16 h32 h48
  · exact ⟨fun _ => rfl, by omega, by omega, by omega⟩
  · exact ⟨by omega, fun _ _ => rfl, by omega, by omega⟩
  · exact ⟨by omega, by omega, fun _ _ => rfl, by omega⟩
  · exact ⟨by omega, by omega, by omega, fun _ => rfl⟩

/-- The assignments of R106, from the function, the message index and the rotation of the step; the rotation
is the library's. -/
theorem md5Step_of_schedule {m : Vector Word 16} {i : Fin 64} {v : Md5Vars} {f : Word} {g r : Nat}
    (hf : roundFunction i v.b v.c v.d = f) (hg : messageWord i = Fin.ofNat 16 g)
    (hr : rotationAmount i = r) : md5Step m i v =
      { a := v.d, b := v.b + (v.a + f + kTable[i] + m[g % 16]).rotateLeft r, c := v.b, d := v.c } := by
  subst hf hr
  have hword : m[messageWord i] = m[g % 16] := by
    simp only [hg]
    rfl
  have hlt : rotationAmount i < 32 := (rotationAmount_bounds i).2.trans_lt (by decide)
  rw [← hword, ← rotl32_eq_rotateLeft _ hlt]
  rfl

/-! ### The 64 steps -/

/-- A sequence of working variables that takes each of the 64 steps is the model's run. -/
theorem md5Steps_of_stepwise {m : Vector Word 16} {v : Nat → Md5Vars}
    (hstep : ∀ i : Fin 64, v (i.val + 1) = md5Step m i (v i)) {n : Nat} (hn : n ≤ 64) :
    md5Steps m (v 0) n = v n := by
  induction n with
  | zero => rfl
  | succ n ih =>
    have hi : Fin.ofNat 64 n = ⟨n, hn⟩ := Fin.ext (Nat.mod_eq_of_lt hn)
    rw [md5Steps_succ, ih (Nat.le_of_succ_le hn), hi, ← hstep ⟨n, hn⟩]

/-- The working variables that four sequences hold before step `n` (R106). -/
def varsAt (a b c d : Nat → Word) (n : Nat) : Md5Vars := { a := a n, b := b n, c := c n, d := d n }

end Sys2Proof.Machine

namespace Sys2Proof.Md5Proofs

open Sys2Proof.Machine Sys2Proof.Safety

/-- Settles O26: in each group the four equations are one model step, so the sequences are the run. -/
theorem mdcompObeysStepEquations : Obligations.MdcompObeysStepEquations := by
  refine ⟨fun s hf => exec_mdcomp_of_fault hf, fun s a b c d hf ha hb hc hd heq => ?_⟩
  have hstep : ∀ i : Fin 64, varsAt a b c d (i.val + 1) = md5Step s.blk.m i (varsAt a b c d i.val) := by
    intro i
    obtain ⟨hai, hdi, hci, hb0, hb1, hb2, hb3⟩ := heq i
    obtain ⟨f0, f1, f2, f3⟩ := roundFunction_groups i (b i) (c i) (d i)
    obtain ⟨g0, g1, g2, g3⟩ := messageWord_groups i
    obtain ⟨r0, r1, r2, r3⟩ := rotationAmount_groups i
    rw [varsAt, hai, hdi, hci]
    rcases Nat.lt_or_ge i.val 16 with h16 | h16
    · rw [hb0 h16, md5Step_of_schedule (f0 h16) (g0 h16) (r0 h16)]
      rfl
    rcases Nat.lt_or_ge i.val 32 with h32 | h32
    · rw [hb1 h16 h32, md5Step_of_schedule (f1 h16 h32) (g1 h16 h32) (r1 h16 h32)]
      rfl
    rcases Nat.lt_or_ge i.val 48 with h48 | h48
    · rw [hb2 h32 h48, md5Step_of_schedule (f2 h32 h48) (g2 h32 h48) (r2 h32 h48)]
      rfl
    · rw [hb3 h48, md5Step_of_schedule (f3 h48) (g3 h48) (r3 h48)]
      rfl
  have hrun := md5Steps_of_stepwise hstep le_rfl
  rw [varsAt, ha, hb, hc, hd] at hrun
  rw [exec_mdcomp_of_clear hf, compress_of_steps hrun]
  rfl

/-- Settles O28; within a word the model's rotation is the library's. -/
theorem rotationMovesEveryBit : Obligations.RotationMovesEveryBit := by
  intro v s p _ hs hp
  rw [rotl32_eq_rotateLeft v hs, rotateLeft_getLsbD_add_mod v hs hp]

/-- Settles O25. -/
theorem mdinitLoadsInitialValue : Obligations.MdinitLoadsInitialValue := fun _ =>
  ⟨exec_instr_of_clear (op := .mdinit) nofun nofun, exec_instr_of_fault (op := .mdinit) nofun nofun⟩

/-- Settles O27: the function is the compression. -/
theorem mdcompWritesChainingValueOnly : Obligations.MdcompWritesChainingValueOnly :=
  ⟨compress, fun _ => ⟨exec_mdcomp_of_clear, exec_mdcomp_of_fault⟩⟩

/-- Settles O29, by evaluating the two tables at each of the 64 steps. -/
theorem stepScheduleWrittenOut : Obligations.StepScheduleWrittenOut := by
  constructor <;> decide

/-- Settles O30: `H` is `IV` and `M` the block whose 64 steps are known. -/
theorem emptyBlockCompressed : Obligations.EmptyBlockCompressed := by
  intro s hf hh hm
  have hcompress : compress s.blk.h s.blk.m =
      #v[0xd98c1dd4#32, 0x04b2008f#32, 0x980980e9#32, 0x7e42f8ec#32] := by
    rw [hh, hm]
    exact compress_iv_emptyMessageBlock
  rw [exec_mdcomp_of_clear hf, hcompress]

end Sys2Proof.Md5Proofs

/-! The digest buffer: DGCLR and DGLATCH behind the lockout, the serialisation of `H` and its read-back, one
push and any number of them (spec/42_digest_buffer.md). -/

namespace Sys2Proof.Machine

/-! ### The serialised chaining value (R43 (b), R122, R123) -/

theorem digestOf_getElem (h : Vector Word 4) (j k : Fin 4) :
    (digestOf h)[4 * j.val + k.val] = wordByte h[j] k.val := by
  have hword : (4 * j.val + k.val) / 4 = j.val := by omega
  have hbyte : (4 * j.val + k.val) % 4 = k.val := by omega
  simp [digestOf, hword, hbyte]

/-- A word of the latched buffer is put together as it was taken apart (R123). -/
theorem digestWord_dglatch (b : Block) (j : Fin 4) : (dglatch b).1.digestWord j = b.h[j] := by
  have hbytes : (dglatch b).1.digestWord j = wordOfBytes (wordByte b.h[j] 0) (wordByte b.h[j] 1)
      (wordByte b.h[j] 2) (wordByte b.h[j] 3) := by
    simp [Block.digestWord, digestOf, Nat.mul_add_div]
  rw [hbytes, wordOfBytes_wordByte]

/-- DGLATCH with no fault latched (R122). -/
theorem exec_dglatch_of_clear {s : State} (hf : s.blk.fault = false) :
    exec .dglatch s = .next (s.complete (dglatch s.blk)) :=
  exec_instr_of_clear (op := .dglatch) nofun nofun hf

/-! ### One push (R67, R124) -/

/-- `DGPUSH` refuses exactly the words above a byte (R67). -/
theorem pushByte_eq_none_iff (d : Word) : pushByte d = none ↔ 256 ≤ d.toNat := by
  have hhigh : d.extractLsb' 8 24 = 0#24 ↔ d.toNat < 256 := by
    have hd := d.isLt
    simp only [← BitVec.toNat_inj, BitVec.extractLsb'_toNat, Nat.shiftRight_eq_div_pow,
      BitVec.toNat_ofNat]
    omega
  simp [pushByte, hhigh]

/-- A byte extended with zeros is accepted. -/
theorem exists_pushByte {d : Word} (hd : d.toNat < 256) :
    ∃ v : Byte, v.toNat = d.toNat ∧ pushByte d = some v := by
  rcases hp : pushByte d with _ | v
  · have hbig := (pushByte_eq_none_iff d).mp hp
    omega
  · refine ⟨v, ?_, rfl⟩
    rw [eq_setWidth_of_pushByte hp, BitVec.toNat_setWidth_of_le (by decide)]

@[simp] theorem pushByte_setWidth (v : Byte) : pushByte (v.setWidth 32) = some v := by
  have hword : (v.setWidth 32).toNat = v.toNat := BitVec.toNat_setWidth_of_le (by decide)
  obtain ⟨u, hu, hp⟩ := exists_pushByte (hword.trans_lt v.isLt)
  rw [hp, BitVec.eq_of_toNat_eq (hu.trans hword)]

theorem writeDgpush_of_pushByte {b : Block} {d : Word} {v : Byte} (hv : pushByte d = some v) :
    writeDgpush b d = pushDigest b v := by
  rw [writeDgpush, hv]

theorem writeDgpush_refused {b : Block} {d : Word} (hd : pushByte d = none) :
    writeDgpush b d = b.accessError := by
  rw [writeDgpush, hd]

/-- The byte goes to cell `DLEN`, before it is counted (R124). -/
theorem pushDigest_dg_getElem (b : Block) (v : Byte) (j : Fin 16) :
    (pushDigest b v).1.dg[j] = if b.dlen.toNat = j.val then v else b.dg[j] := by
  rw [pushDigest_dg]
  split
  · exact Vector.getElem_set _ j.isLt
  · rw [if_neg (by omega)]

theorem transactT_pushT (tail : PackTail) (v : Byte) (b : Block) :
    transactT tail (pushT v) b = pushDigest b v := by
  rw [pushT, transactT_write_address, writeReg, writeDgpush_of_pushByte (pushByte_setWidth v)]

/-! ### Any number of pushes (R124, R125, R175) -/

/-- The block after a push of each byte, the first one first. -/
def pushAll (b : Block) (bytes : List Byte) : Block :=
  bytes.foldl (fun c v => (pushDigest c v).1) b

@[simp] theorem pushAll_nil (b : Block) : pushAll b [] = b := rfl

theorem pushAll_cons (b : Block) (v : Byte) (bytes : List Byte) :
    pushAll b (v :: bytes) = pushAll (pushDigest b v).1 bytes := rfl

theorem pushAll_concat (b : Block) (bytes : List Byte) (v : Byte) :
    pushAll b (bytes ++ [v]) = (pushDigest (pushAll b bytes) v).1 := by
  simp [pushAll]

theorem transactAll_map_pushT (tail : PackTail) (bytes : List Byte) (b : Block) :
    (transactAll tail (bytes.map pushT) b).1 = pushAll b bytes := by
  induction bytes generalizing b with
  | nil => rfl
  | cons v bytes ih =>
    rw [List.map_cons, transactAll_cons_block, transactT_pushT, ih, pushAll_cons]

/-- Pushes change the buffer and its length only, once the result is marked not valid. -/
theorem pushAll_frame {b : Block} (hv : b.fpvalid = false) (bytes : List Byte) :
    pushAll b bytes =
      { b with dg := (pushAll b bytes).dg, dlen := (pushAll b bytes).dlen, fpvalid := false } := by
  induction bytes generalizing b with
  | nil => rw [← hv, pushAll_nil]
  | cons v bytes ih => exact ih (pushDigest_fpvalid b v)

theorem pushAll_dlen_toNat (b : Block) (bytes : List Byte) :
    (pushAll b bytes).dlen.toNat = min (b.dlen.toNat + bytes.length) 255 := by
  induction bytes using List.reverseRecOn with
  | nil => simp; omega
  | append_singleton bytes v ih =>
    rw [pushAll_concat, pushDigest_dlen_toNat, ih, List.length_append, List.length_singleton]
    omega

/-- From an empty buffer, cell `j` takes byte `j` where there is one. -/
theorem pushAll_dg_getElem {b : Block} (hlen : b.dlen = 0#8) (bytes : List Byte) (j : Fin 16) :
    (pushAll b bytes).dg[j] = (bytes[j.val]?).getD b.dg[j] := by
  induction bytes using List.reverseRecOn with
  | nil => rfl
  | append_singleton bytes v ih =>
    have hcount := pushAll_dlen_toNat b bytes
    rw [hlen, BitVec.toNat_ofNat] at hcount
    rw [pushAll_concat, pushDigest_dg_getElem, ih]
    rcases Nat.lt_trichotomy j.val bytes.length with hj | hj | hj
    · rw [if_neg (by omega), List.getElem?_append_left hj]
    · rw [if_pos (by omega)]
      simp [hj]
    · rw [if_neg (by omega), List.getElem?_eq_none hj.le, List.getElem?_eq_none (by simp; omega)]

theorem assemble_pushdg (bytes : List Byte) :
    assemble [.pushdg bytes] = commandT .dgclr :: bytes.map pushT := by
  simp [assemble, expand]

/-- `PUSHDG` while no fault is latched: DGCLR, then the pushes (R72). -/
theorem transactAll_pushdg (tail : PackTail) (bytes : List Byte) {b : Block} (hf : b.fault = false) :
    (transactAll tail (assemble [.pushdg bytes]) b).1 = pushAll (dgclr b).1 bytes := by
  rw [assemble_pushdg, transactAll_cons_block, transactT_commandT tail .dgclr hf,
    transactAll_map_pushT, runCommand]

end Sys2Proof.Machine

namespace Sys2Proof.DigestBufferProofs

open Sys2Proof.Machine Sys2Proof.Safety

/-- Settles O20, by whether the data is a byte. -/
theorem pushStoresCountsAndInvalidates : Obligations.PushStoresCountsAndInvalidates := by
  intro s v
  have hexec := exec_wr_address .dgpush v s
  rw [writeReg] at hexec
  refine ⟨fun hbig => ?_, fun hsmall => ?_⟩
  · rw [writeDgpush_refused ((pushByte_eq_none_iff v).mpr hbig)] at hexec
    exact hexec
  · obtain ⟨u, hu, hp⟩ := exists_pushByte hsmall
    rw [writeDgpush_of_pushByte hp] at hexec
    refine ⟨(pushDigest s.blk u).1.dg, (pushDigest s.blk u).1.dlen, hexec,
      pushDigest_dlen_toNat s.blk u, fun j => ?_⟩
    rw [pushDigest_dg_getElem, ← hu, apply_ite BitVec.toNat]

/-- Settles O32, from the bytes of the latched buffer and its words. -/
theorem dglatchSerialisesChainingValue : Obligations.DglatchSerialisesChainingValue := by
  refine fun s => ⟨fun hf => ⟨digestOf s.blk.h, exec_dglatch_of_clear hf, fun j k => ?_, fun t j ht => ?_⟩,
    exec_instr_of_fault (op := .dglatch) nofun nofun⟩
  · rw [digestOf_getElem, wordByte_toNat]
  · rw [exec_dglatch_of_clear hf] at ht
    cases ht
    rw [ofNat_eq_address_dgw]
    exact exec_rd_address (congrArg some (digestWord_dglatch s.blk j))

/-- Settles O54: the run is DGCLR and the pushes, which fill the emptied buffer in order. -/
theorem pushedBytesFillBuffer : Obligations.PushedBytesFillBuffer := by
  intro s bytes hf hp
  have hlen : (assemble [.pushdg bytes]).length = 1 + bytes.length := by
    rw [assemble_pushdg, List.length_cons, List.length_map, Nat.add_comm]
  have hrun := runsTo_issue hp (assemble [.pushdg bytes])
  rw [hlen, transactAll_pushdg _ bytes hf] at hrun
  refine ⟨_, hrun, rfl, pushAll_frame rfl bytes, ?_, fun j => ?_⟩
  · simpa using pushAll_dlen_toNat (dgclr s.blk).1 bytes
  · simpa using pushAll_dg_getElem (b := (dgclr s.blk).1) rfl bytes j

/-- Settles O31. -/
theorem dgclrEmptiesBuffer : Obligations.DgclrEmptiesBuffer := fun _ =>
  ⟨exec_instr_of_clear (op := .dgclr) nofun nofun, exec_instr_of_fault (op := .dgclr) nofun nofun⟩

end Sys2Proof.DigestBufferProofs

/-! FPENC: nibbles of the digest as numbers, one iteration and then all five, the packing machine and the
characters, the command behind the lockout (spec/43_fingerprint.md). -/

namespace Sys2Proof.Machine

open Sys2Proof.Safety

/-! ### Nibbles of the digest (R133, R135, R136) -/

theorem highNibble_toNat (v : Byte) : (v.extractLsb' 4 4).toNat = v.toNat / 16 := by
  rw [BitVec.extractLsb'_toNat, Nat.shiftRight_eq_div_pow]
  omega

theorem lowNibble_toNat (v : Byte) : (v.extractLsb' 0 4).toNat = v.toNat % 16 := by
  rw [BitVec.extractLsb'_toNat, Nat.shiftRight_zero]

/-- The bytes of the flat sequence are the cells of the digest (R43 (c)). -/
theorem flatNibble_eq (dg : Vector Byte 16) {k : Nat} (hk : k / 2 < 16) :
    flatNibble dg k = if k % 2 = 0 then dg[k / 2].toNat / 16 else dg[k / 2].toNat % 16 := by
  simp [flatNibble, hk]

theorem flatNibble_lt (dg : Vector Byte 16) (k : Nat) : flatNibble dg k < 16 := by
  simp only [flatNibble]
  split <;> omega

theorem readNibble_toNat (dg : Vector Byte 16) (k : Nat) (hk : k < 32) :
    (readNibble dg k hk).toNat = flatNibble dg k := by
  rw [flatNibble_eq dg (by omega), readNibble, apply_ite BitVec.toNat, highNibble_toNat,
    lowNibble_toNat]

/-- The shift and the OR of R135 put two nibbles side by side. -/
theorem shiftLeft_or_eq_append (high low : Nibble) :
    (high.setWidth 8 <<< 4) ||| low.setWidth 8 = high ++ low := by
  revert high low
  decide

/-- The nibbles `t` and `t + 1` lie in one byte when `t` is even, and in two neighbours when it is odd. -/
theorem readCombined_toNat (dg : Vector Byte 16) (t : Half) (ht : inRange t) :
    (readCombined dg t ht).toNat = flatNibble dg t.toNat * 16 + flatNibble dg (t.toNat + 1) := by
  have hlt := (inRange_iff t).mp ht
  rw [flatNibble_eq dg (by omega), flatNibble_eq dg (by omega), readCombined]
  split_ifs with heven hnext hnext
  · omega
  · have hbyte : (t.toNat + 1) / 2 = t.toNat / 2 := by omega
    rw [BitVec.toNat_setWidth_of_le (by decide)]
    simp only [hbyte]
    omega
  · have hbyte : (t.toNat + 1) / 2 = t.toNat / 2 + 1 := by omega
    dsimp only
    rw [shiftLeft_or_eq_append, BitVec.toNat_setWidth_of_le (by decide), append_toNat, lowNibble_toNat,
      highNibble_toNat]
    simp only [hbyte]
    omega
  · omega

/-! ### One iteration (R134, R137 to R139) -/

/-- The index `t` of iteration `i`, as a number (R134). -/
def indexOf (dg : Vector Byte 16) (i : Fin 5) : Nat :=
  addend[i].toNat + flatNibble dg nibbleIndex[i].toNat

theorem addend_le (i : Fin 5) : addend[i].toNat ≤ 16 := by
  revert i
  decide

/-- The 16-bit addition of R134 does not wrap. -/
theorem combinedIndex_toNat (dg : Vector Byte 16) (i : Fin 5) :
    (combinedIndex dg i).toNat = indexOf dg i := by
  have hadd := addend_le i
  have hnib := flatNibble_lt dg nibbleIndex[i].toNat
  rw [combinedIndex, BitVec.toNat_add, BitVec.toNat_setWidth_of_le (by decide), readNibble_toNat, indexOf]
  omega

/-- The cut to a byte and the mask `0x0F` leave the low nibble (R138). -/
theorem maskedNibble_toNat (v : Half) : ((v.setWidth 8 &&& 0x0F#8).setWidth 4).toNat = v.toNat % 16 := by
  have hmask : v.toNat % 256 &&& 15 = v.toNat % 256 % 16 := Nat.and_two_pow_sub_one_eq_mod _ 4
  change (v.toNat % 256 &&& 15) % 16 = v.toNat % 16
  omega

/-- The masked product sees the low nibble of its factor only, so nibble `t` does not reach the result
(R138, R139). -/
theorem maskedProduct_toNat (x m : Half) :
    (((x * m).setWidth 8 &&& 0x0F#8).setWidth 4).toNat = x.toNat % 16 * m.toNat % 16 := by
  rw [maskedNibble_toNat, BitVec.toNat_mul, Nat.mod_mod_of_dvd _ (by decide), Nat.mod_mul_mod]

/-- One iteration in closed form: its result or its fault, from the nibble that `index` names and from nibble
`t + 1` (R137, R139). -/
theorem iteration_eq (dg : Vector Byte 16) (i : Fin 5) :
    iteration dg i =
      if indexOf dg i + 1 ≤ 31 then
        .ok (BitVec.ofNat 4
          (closedNibble dg nibbleIndex[i].toNat addend[i].toNat multiplier[i].toNat))
      else .error (rangeInfo i (BitVec.ofNat 16 (indexOf dg i))) := by
  have hrange : inRange (combinedIndex dg i) ↔ indexOf dg i + 1 ≤ 31 := by
    rw [inRange_iff, combinedIndex_toNat]
  rw [iteration]
  by_cases ht : inRange (combinedIndex dg i)
  · rw [dif_pos ht, if_pos (hrange.mp ht)]
    refine congrArg Except.ok (BitVec.eq_of_toNat_eq ?_)
    rw [maskedProduct_toNat, readCombined_toNat, combinedIndex_toNat, BitVec.toNat_ofNat, closedNibble,
      ← indexOf, Nat.mul_add_mod_self_right, Nat.mod_eq_of_lt (flatNibble_lt _ _), Nat.mod_mod]
  · rw [dif_neg ht, if_neg (hrange.not.mp ht), ← combinedIndex_toNat, BitVec.ofNat_toNat,
      BitVec.setWidth_eq]

/-- An iteration reads two nibbles: the one `index` names and the one after nibble `t` (R150). -/
theorem iteration_congr {dg dg' : Vector Byte 16} {i : Fin 5}
    (hindex : flatNibble dg nibbleIndex[i].toNat = flatNibble dg' nibbleIndex[i].toNat)
    (hselected : flatNibble dg (indexOf dg i + 1) = flatNibble dg' (indexOf dg i + 1)) :
    iteration dg i = iteration dg' i := by
  have hsame : indexOf dg i = indexOf dg' i := by rw [indexOf, hindex, indexOf]
  have hclosed : ∀ m, closedNibble dg nibbleIndex[i].toNat addend[i].toNat m =
      closedNibble dg' nibbleIndex[i].toNat addend[i].toNat m := by
    intro m
    rw [closedNibble, closedNibble, ← indexOf, ← indexOf, hselected, hsame]
  rw [iteration_eq, iteration_eq, hclosed, hsame]

/-! ### The five iterations (R131 step 2, R193) -/

theorem iterations_congr {dg dg' : Vector Byte 16} (h : ∀ i, iteration dg i = iteration dg' i) :
    iterations dg = iterations dg' := by
  simp only [iterations, h]

/-- Every addend but the one of iteration 2 is so small that all its indices are in range (R137). -/
theorem indexOf_add_one_le (dg : Vector Byte 16) {i : Fin 5} (hi : i ≠ 2) : indexOf dg i + 1 ≤ 31 := by
  have hadd : ∀ i : Fin 5, i ≠ 2 → addend[i].toNat ≤ 13 := by decide
  have hle := hadd i hi
  have hnib := flatNibble_lt dg nibbleIndex[i].toNat
  rw [indexOf]
  omega

/-- The index of iteration 2 comes from the high nibble of byte 3 (R137). -/
theorem indexOf_two (dg : Vector Byte 16) : indexOf dg 2 = 16 + dg[3].toNat / 16 :=
  congrArg (16 + ·) (flatNibble_eq dg (k := 6) (by decide))

/-- The result nibbles in closed form (R139). -/
def closedNibbles (dg : Vector Byte 16) : Vector Nibble 5 :=
  #v[BitVec.ofNat 4 (closedNibble dg 14 0 2), BitVec.ofNat 4 (closedNibble dg 3 13 2),
     BitVec.ofNat 4 (closedNibble dg 6 16 5), BitVec.ofNat 4 (closedNibble dg 8 11 4),
     BitVec.ofNat 4 (closedNibble dg 2 5 3)]

theorem iterations_of_lt {dg : Vector Byte 16} (h3 : dg[3].toNat < 0xF0) :
    iterations dg = .ok (closedNibbles dg) := by
  have hrange : ∀ i, indexOf dg i + 1 ≤ 31 := by
    intro i
    by_cases hi : i = 2
    · rw [hi, indexOf_two]
      omega
    · exact indexOf_add_one_le dg hi
  simp only [iterations, iteration_eq, hrange, if_true]
  rfl

/-- The one fault there is: nibble 31 has no successor, in iteration 2 (R137). -/
theorem iterations_of_ge {dg : Vector Byte 16} (h3 : 0xF0 ≤ dg[3].toNat) :
    iterations dg = .error 0x5F#8 := by
  have hlast : indexOf dg 2 = 31 := by
    have hbyte := dg[3].isLt
    rw [indexOf_two]
    omega
  have hfault : iteration dg 2 = .error 0x5F#8 := by
    rw [iteration_eq, hlast, if_neg (by decide)]
    rfl
  have h0 : indexOf dg 0 + 1 ≤ 31 := indexOf_add_one_le dg (by decide)
  have h1 : indexOf dg 1 + 1 ≤ 31 := indexOf_add_one_le dg (by decide)
  rw [iterations, hfault, iteration_eq dg 0, if_pos h0, iteration_eq dg 1, if_pos h1]
  rfl

/-! ### The packing machine (R141 to R143) -/

/-- An element and the next one become the low and the high nibble of a byte (R141). -/
theorem packedByte_eq_append (low high : Nibble) :
    ((low.setWidth 16 &&& 0x0F#16) ||| ((high.setWidth 16 &&& 0x0F#16) <<< 4)).setWidth 8 = high ++ low := by
  revert low high
  decide

theorem packVisit_of_idle {s : PackState} (hs : s.pending = false) (v : Nibble) :
    packVisit s v = { s with x := v.setWidth 16 &&& 0x0F#16, pending := true } := by
  simp [packVisit, hs]

/-- Two visits write one byte and free the machine again (R141). -/
theorem packVisit_pair {s : PackState} (hs : s.pending = false) (low high : Nibble) :
    ∃ x, packVisit (packVisit s low) high =
      { p := s.p.set s.w (high ++ low), w := s.w - 1, pending := false, x := x } := by
  rw [packVisit_of_idle hs, ← packedByte_eq_append low high]
  exact ⟨_, rfl⟩

/-- The byte that `FLUSH` writes for the nibble left pending (R143). -/
theorem flushedByte_eq_append (v : Nibble) :
    (v.setWidth 16 &&& 0x0F#16).setWidth 8 = 0#4 ++ v := by
  revert v
  decide

/-- Two pairs of visits fill the slots 2 and 1; `r[0]` is left pending (R141). -/
theorem packVisits_eq (r : Vector Nibble 5) :
    [r[4], r[3], r[2], r[1], r[0]].foldl packVisit packStart =
      { p := #v[0#8, r[1] ++ r[2], r[3] ++ r[4]], w := 0, pending := true,
        x := r[0].setWidth 16 &&& 0x0F#16 } := by
  obtain ⟨x, hfirst⟩ := packVisit_pair (s := packStart) rfl r[4] r[3]
  simp only [List.foldl_cons, List.foldl_nil, hfirst]
  obtain ⟨y, hsecond⟩ := packVisit_pair
    (s := { p := packStart.p.set packStart.w (r[3] ++ r[4]), w := packStart.w - 1, pending := false,
            x := x }) rfl r[2] r[1]
  rw [hsecond, packVisit_of_idle rfl]
  rfl

theorem pack_discard (r : Vector Nibble 5) :
    pack .discard r = #v[0x00#8, r[1] ++ r[2], r[3] ++ r[4]] := by
  rw [pack, packVisits_eq]

theorem pack_flush (r : Vector Nibble 5) :
    pack .flush r = #v[0#4 ++ r[0], r[1] ++ r[2], r[3] ++ r[4]] := by
  rw [pack, packVisits_eq, ← flushedByte_eq_append]
  rfl

theorem firstPacked_lt (tail : PackTail) {n : Nat} (hn : n < 16) : firstPacked tail n < 16 := by
  cases tail with
  | discard => exact Nat.zero_lt_succ 15
  | flush => exact hn

/-- The packed bytes for both values of `PACK_TAIL` (R142, R143). -/
theorem pack_eq (tail : PackTail) (r : Vector Nibble 5) :
    pack tail r =
      #v[0#4 ++ BitVec.ofNat 4 (firstPacked tail r[0].toNat), r[1] ++ r[2], r[3] ++ r[4]] := by
  cases tail with
  | discard => rw [pack_discard, firstPacked, if_neg nofun]; rfl
  | flush => rw [pack_flush, firstPacked, if_pos rfl, BitVec.ofNat_toNat, BitVec.setWidth_eq]

/-! ### The characters (R144 to R146) -/

theorem hexchar_eq_hexCode (v : Nibble) : hexchar v = hexCode v.toNat := by
  revert v
  decide

theorem highNibble_append (high low : Nibble) : (high ++ low).extractLsb' 4 4 = high := by
  apply BitVec.eq_of_toNat_eq
  rw [highNibble_toNat, append_toNat]
  omega

theorem lowNibble_append (high low : Nibble) : (high ++ low).extractLsb' 0 4 = low := by
  apply BitVec.eq_of_toNat_eq
  rw [lowNibble_toNat, append_toNat]
  omega

/-- The Fingerprint of bytes put together from nibbles; the digit of the first nibble is dropped (R146). -/
theorem fingerprint_of_nibbles (n0 n1 n2 n3 n4 n5 : Nibble) :
    fingerprint #v[n0 ++ n1, n2 ++ n3, n4 ++ n5] =
      #v[hexchar n1, hexchar n2, hexchar n3, hexchar n4, hexchar n5] := by
  simp [fingerprint, hex6, highNibble_append, lowNibble_append]

/-- Nibble `k` of `PK` from the top is the one that character `k` of the six renders (R145). -/
theorem hex6_getElem (p : Vector Byte 3) (k : Fin 6) :
    (hex6 p)[k] = hexCode ((pkOf p).toNat / 16 ^ (5 - k.val) % 16) := by
  have h0 := p[0].isLt
  have h1 := p[1].isLt
  have h2 := p[2].isLt
  rw [pkOf_toNat]
  fin_cases k <;>
    (refine (hexchar_eq_hexCode _).trans (congrArg hexCode ?_)
     simp only [highNibble_toNat, lowNibble_toNat]
     omega)

/-! ### The encoding (R139, R147, R148) -/

theorem toNat_ofNat_closedNibble (dg : Vector Byte 16) (index addend multiplier : Nat) :
    (BitVec.ofNat 4 (closedNibble dg index addend multiplier)).toNat =
      closedNibble dg index addend multiplier := by
  rw [BitVec.toNat_ofNat, closedNibble, Nat.mod_mod]

theorem closedNibbles_toNat (dg : Vector Byte 16) :
    (closedNibbles dg)[0].toNat = closedNibble dg 14 0 2 ∧
      (closedNibbles dg)[1].toNat = closedNibble dg 3 13 2 ∧
      (closedNibbles dg)[2].toNat = closedNibble dg 6 16 5 ∧
      (closedNibbles dg)[3].toNat = closedNibble dg 8 11 4 ∧
      (closedNibbles dg)[4].toNat = closedNibble dg 2 5 3 :=
  ⟨toNat_ofNat_closedNibble .., toNat_ofNat_closedNibble .., toNat_ofNat_closedNibble ..,
    toNat_ofNat_closedNibble .., toNat_ofNat_closedNibble ..⟩

theorem rnibOf_eq_ofNat (r : Vector Nibble 5) :
    rnibOf r = BitVec.ofNat 20
      (r[0].toNat + 16 * r[1].toNat + 256 * r[2].toNat + 4096 * r[3].toNat + 65536 * r[4].toNat) := by
  rw [← rnibOf_toNat, BitVec.ofNat_toNat, BitVec.setWidth_eq]

theorem firstPackedNibble_toNat (tail : PackTail) (v : Nibble) :
    (BitVec.ofNat 4 (firstPacked tail v.toNat)).toNat = firstPacked tail v.toNat := by
  rw [BitVec.toNat_ofNat, Nat.mod_eq_of_lt (firstPacked_lt tail v.isLt)]

/-- `PK` as a number, from the result nibbles (R148). -/
theorem pkOf_pack (tail : PackTail) (r : Vector Nibble 5) :
    pkOf (pack tail r) = BitVec.ofNat 24
      (65536 * firstPacked tail r[0].toNat + 256 * (16 * r[1].toNat + r[2].toNat) +
        (16 * r[3].toNat + r[4].toNat)) := by
  have hvalue : (pkOf (pack tail r)).toNat =
      65536 * firstPacked tail r[0].toNat + 256 * (16 * r[1].toNat + r[2].toNat) +
        (16 * r[3].toNat + r[4].toNat) := by
    rw [pkOf_toNat, pack_eq]
    change 65536 * (0#4 ++ BitVec.ofNat 4 (firstPacked tail r[0].toNat)).toNat +
      256 * (r[1] ++ r[2]).toNat + (r[3] ++ r[4]).toNat = _
    rw [append_toNat, append_toNat, append_toNat, firstPackedNibble_toNat, BitVec.toNat_ofNat]
    omega
  rw [← hvalue, BitVec.ofNat_toNat, BitVec.setWidth_eq]

/-- The characters, from the result nibbles (R147). -/
theorem fingerprint_pack (tail : PackTail) (r : Vector Nibble 5) :
    fingerprint (pack tail r) =
      #v[hexCode (firstPacked tail r[0].toNat), hexCode r[1].toNat, hexCode r[2].toNat,
        hexCode r[3].toNat, hexCode r[4].toNat] := by
  rw [pack_eq, fingerprint_of_nibbles]
  simp only [hexchar_eq_hexCode, firstPackedNibble_toNat]

/-- What FPENC writes when its five iterations end without a fault (R148). -/
theorem encodeDigest_of_iterations (tail : PackTail) {dg : Vector Byte 16} {r : Vector Nibble 5}
    (h : iterations dg = .ok r) :
    encodeDigest tail dg = .ok {
      rnib := BitVec.ofNat 20
        (r[0].toNat + 16 * r[1].toNat + 256 * r[2].toNat + 4096 * r[3].toNat + 65536 * r[4].toNat)
      pk := BitVec.ofNat 24
        (65536 * firstPacked tail r[0].toNat + 256 * (16 * r[1].toNat + r[2].toNat) +
          (16 * r[3].toNat + r[4].toNat))
      fpc := #v[hexCode (firstPacked tail r[0].toNat), hexCode r[1].toNat, hexCode r[2].toNat,
        hexCode r[3].toNat, hexCode r[4].toNat] } := by
  rw [← rnibOf_eq_ofNat, ← pkOf_pack, ← fingerprint_pack, encodeDigest, h]
  rfl

theorem encodeDigest_of_ge (tail : PackTail) {dg : Vector Byte 16} (h3 : 0xF0 ≤ dg[3].toNat) :
    encodeDigest tail dg = .error 0x5F#8 := by
  rw [encodeDigest, iterations_of_ge h3]
  rfl

theorem encodeDigest_congr (tail : PackTail) {dg dg' : Vector Byte 16}
    (h : iterations dg = iterations dg') : encodeDigest tail dg = encodeDigest tail dg' := by
  rw [encodeDigest, h, encodeDigest]

/-! ### The command (R131, R132, R203) -/

theorem fpenc_of_length (tail : PackTail) {b : Block} (hlen : b.dlen ≠ 16#8) :
    fpenc tail b = b.raise .invalidDigestLength b.dlen := by
  rw [fpenc, if_pos hlen]

theorem fpenc_of_error {tail : PackTail} {b : Block} {v : Byte} (hlen : b.dlen = 16#8)
    (he : encodeDigest tail b.dg = .error v) : fpenc tail b = b.raise .indexOutOfRange v := by
  rw [fpenc, if_neg (not_not.mpr hlen), he]

theorem fpenc_of_ok {tail : PackTail} {b : Block} {e : Encoding} (hlen : b.dlen = 16#8)
    (he : encodeDigest tail b.dg = .ok e) :
    fpenc tail b =
      ({ b with rnib := e.rnib, pk := e.pk, fpc := e.fpc, fpvalid := true }, .okay 0#32) := by
  rw [fpenc, if_neg (not_not.mpr hlen), he]
  rfl

theorem exec_fpenc_of_clear {s : State} (hf : s.blk.fault = false) :
    exec .fpenc s = .next (s.complete (fpenc Config.packTail s.blk)) :=
  exec_instr_of_clear (op := .fpenc) nofun nofun hf

end Sys2Proof.Machine

namespace Sys2Proof.FingerprintProofs

open Sys2Proof.Machine Sys2Proof.Safety

/-- Settles O35: all five iterations are in range, and each result is a number made of their nibbles. -/
theorem fpencResultInClosedForm : Obligations.FpencResultInClosedForm := by
  intro s hf hlen hbyte
  have henc := encodeDigest_of_iterations Config.packTail (iterations_of_lt hbyte)
  obtain ⟨h0, h1, h2, h3, h4⟩ := closedNibbles_toNat s.blk.dg
  rw [h0, h1, h2, h3, h4] at henc
  rw [exec_fpenc_of_clear hf, fpenc_of_ok hlen henc]
  rfl

/-- Settles O36: the length is checked first, then the one index that can be out of range. -/
theorem fpencFaultsByLengthThenIndex : Obligations.FpencFaultsByLengthThenIndex := by
  refine fun s => ⟨fun hf hlen => ?_, fun hf hlen h3 => ?_, exec_instr_of_fault (op := .fpenc) nofun nofun⟩
  · rw [exec_fpenc_of_clear hf, fpenc_of_length _ hlen]
    rfl
  · rw [exec_fpenc_of_clear hf, fpenc_of_error hlen (encodeDigest_of_ge _ h3)]
    rfl

/-- Settles O37: equal iterations give equal encodings, so both commands fault or both write the same. -/
theorem fpencDependsOnTenNibbles : Obligations.FpencDependsOnTenNibbles := by
  intro s1 s2 hf1 hf2 hlen1 hlen2 hindex hselected
  have hindices : ∀ i : Fin 5, nibbleIndex[i].toNat ∈ [14, 3, 6, 8, 2] := by decide
  have hrows : ∀ i : Fin 5, (nibbleIndex[i].toNat, addend[i].toNat) ∈
      [(14, 0), (3, 13), (6, 16), (8, 11), (2, 5)] := by decide
  have hiter : iterations s1.blk.dg = iterations s2.blk.dg := iterations_congr fun i =>
    iteration_congr (hindex _ (hindices i)) (hselected _ (hrows i))
  have henc := encodeDigest_congr Config.packTail hiter
  rw [exec_fpenc_of_clear hf1, exec_fpenc_of_clear hf2]
  rcases he : encodeDigest Config.packTail s1.blk.dg with v | e
  · rw [fpenc_of_error hlen1 he, fpenc_of_error hlen2 (henc ▸ he)]
    exact ⟨_, _, _, rfl, rfl, .inr rfl, nofun⟩
  · rw [fpenc_of_ok hlen1 he, fpenc_of_ok hlen2 (henc ▸ he)]
    exact ⟨_, _, _, rfl, rfl, .inl rfl, fun _ => ⟨rfl, rfl, rfl⟩⟩

/-- Settles O38, from the two reads as numbers. -/
theorem combinedReadIsTwoNibbles : Obligations.CombinedReadIsTwoNibbles := fun dg =>
  ⟨readNibble_toNat dg, readCombined_toNat dg, inRange_iff⟩

/-- Settles O40, character by character. -/
theorem charactersRenderPackedBytes : Obligations.CharactersRenderPackedBytes := by
  refine fun p => ⟨hex6_getElem p, fun k => ⟨?_, fingerprint_isHexCode p k⟩⟩
  fin_cases k <;> rfl

/-- Settles O39, from the two pairs of visits. -/
theorem packedBytesInClosedForm : Obligations.PackedBytesInClosedForm := fun r =>
  ⟨pack_discard r, pack_flush r⟩

end Sys2Proof.FingerprintProofs

/-! The system commands: NOP behind the lockout, CLRF and SRESET without it (spec/44_system.md). -/

namespace Sys2Proof.Machine

open Sys2Proof.Safety

/-- CLRF and SRESET are the two commands the lockout does not hold (R84, R203). -/
theorem exec_instr_unlocked {op : Opcode} (h : op = .clrf ∨ op = .sreset) (s : State) :
    exec op.instr s = .next (s.complete (runCommand Config.packTail op s.blk)) := by
  rcases h with rfl | rfl
  · rfl
  · rfl

/-- What CLRF leaves, with and without a fault latched: the block with the fault fields cleared (R162). -/
theorem exec_clrf (s : State) : exec .clrf s = answers s s.blk.clearFault (.okay 0#32) :=
  exec_instr_unlocked (.inl rfl) s

/-- What SRESET leaves, with and without a fault latched: the reset block (R163). -/
theorem exec_sreset (s : State) : exec .sreset s = answers s Block.reset (.okay 0#32) :=
  exec_instr_unlocked (.inr rfl) s

end Sys2Proof.Machine

namespace Sys2Proof.SystemProofs

open Sys2Proof.Machine Sys2Proof.Safety

/-- Settles O24, by the lockout's two cases. -/
theorem nopAnswersOkayOnly : Obligations.NopAnswersOkayOnly := fun _ =>
  ⟨exec_instr_of_clear (op := .nop) nofun nofun, exec_instr_of_fault (op := .nop) nofun nofun⟩

/-- Settles O33; `FAULT` is not looked at. -/
theorem clrfClearsFaultFieldsOnly : Obligations.ClrfClearsFaultFieldsOnly := exec_clrf

/-- Settles O34: SRESET and the hardware reset input both leave the reset block. -/
theorem sresetRestoresResetState : Obligations.SresetRestoresResetState := fun s =>
  ⟨exec_sreset s, hardwareReset_blk s, exec_sreset s⟩

end Sys2Proof.SystemProofs

/-! The host sequences: padding, the MD5 loop over the blocks, the host that looks at FPENC's response or at
`STATUS`, and the rendering of the whole digest (spec/45_host_sequences.md). -/

namespace Sys2Proof.Machine

open Sys2Proof.Safety

/-! ### The padded message (R172) -/

theorem lengthField_length (len : Nat) : (lengthField len).length = 8 := by
  simp [lengthField]

/-- The bytes of the length field as numbers, low byte first. -/
theorem lengthField_eq (len : Nat) :
    lengthField len = (List.range 8).map fun k => BitVec.ofNat 8 (8 * len % 2 ^ 64 / 256 ^ k) := by
  refine List.map_congr_left fun k _ => BitVec.eq_of_toNat_eq ?_
  rw [BitVec.extractLsb'_toNat, BitVec.toNat_ofNat, Nat.shiftRight_eq_div_pow, pow_mul,
    BitVec.toNat_ofNat]
  norm_num

theorem padZeros_lt (len : Nat) : padZeros len < 64 := Nat.mod_lt _ (by decide)

/-- The zeros reach the congruence, so as fewer than 64 they are the fewest that do. -/
theorem padZeros_congruence (len : Nat) : (len + 1 + padZeros len) % 64 = 56 := by
  rw [padZeros]
  omega

theorem pad_length (msg : List Byte) : (pad msg).length = 64 * ((msg.length + 8) / 64 + 1) := by
  have hlt := padZeros_lt msg.length
  have hmod := padZeros_congruence msg.length
  simp only [pad, List.length_append, List.length_singleton, List.length_replicate, lengthField_length]
  omega

/-! ### MD5 of a message (R171) -/

theorem blocksOf_length (p : List Byte) : (blocksOf p).length = p.length / 64 := by
  simp [blocksOf]

theorem blocksOf_pad_length (msg : List Byte) :
    (blocksOf (pad msg)).length = (msg.length + 8) / 64 + 1 := by
  rw [blocksOf_length, pad_length, Nat.mul_div_cancel_left _ (by decide)]

theorem assemble_md5Listing (msg : List Byte) :
    assemble (md5Listing msg) = commandT .mdinit :: (blocksOf (pad msg)).flatMap loadCompress := by
  simp only [assemble, md5Listing, List.flatMap_cons, List.flatMap_assoc]
  rfl

/-- Seventeen transactions for each block. -/
theorem flatMap_loadCompress_length (blocks : List (List Byte)) :
    (blocks.flatMap loadCompress).length = 17 * blocks.length := by
  induction blocks with
  | nil => rfl
  | cons bytes blocks ih =>
    rw [List.flatMap_cons, List.length_append, loadCompress_length, ih, List.length_cons]
    omega

/-- The loop over the blocks folds the compression into `H` and changes nothing else but `M`. -/
theorem transactAll_flatMap_loadCompress (tail : PackTail) (blocks : List (List Byte)) {b : Block}
    (hf : b.fault = false) :
    ∃ m, (transactAll tail (blocks.flatMap loadCompress) b).1 =
      { b with h := blocks.foldl (fun h blk => compress h (blockAt blk 0)) b.h, m := m } := by
  induction blocks generalizing b with
  | nil => exact ⟨b.m, rfl⟩
  | cons bytes blocks ih =>
    rw [List.flatMap_cons, transactAll_append_block, transactAll_loadCompress tail bytes hf]
    exact ih (b := { b with m := blockAt bytes 0, h := compress b.h (blockAt bytes 0) }) hf

theorem transactAll_md5Listing (tail : PackTail) (msg : List Byte) {b : Block}
    (hf : b.fault = false) :
    ∃ m, (transactAll tail (assemble (md5Listing msg)) b).1 = { b with h := md5 msg, m := m } := by
  rw [assemble_md5Listing, transactAll_cons_block, transactT_commandT tail .mdinit hf]
  exact transactAll_flatMap_loadCompress tail (blocksOf (pad msg)) (b := (mdinit b).1) hf

/-! ### The rendering of the whole digest (R178) -/

/-- Character `k` is the digit of nibble `k` of the flat digest. -/
theorem hex32_getElem (dg : Vector Byte 16) {k : Nat} (hk : k < 32) :
    (hex32 dg)[k] = hexCode (flatNibble dg k) := by
  rw [hex32, Vector.getElem_ofFn, hexchar_eq_hexCode, readNibble_toNat]

/-! ### Commands and reads of the host as transactions (R72, R80, R203) -/

theorem transactT_commandT_of_fault (tail : PackTail) {op : Opcode} (h6 : op ≠ .clrf) (h7 : op ≠ .sreset)
    {b : Block} (hf : b.fault = true) : transactT tail (commandT op) b = (b, .error .faultLocked) := by
  rw [commandT, transactT_write_address, writeReg, writeCmd_word tail b h6 h7, unlessLocked_of_fault _ hf]

/-- A readable register answers its word and the block stays (R47). -/
theorem transactT_read_address (tail : PackTail) {r : Reg} {v : Word} {b : Block}
    (hv : b.read r = some v) : transactT tail (mkT false (address r) 0#32) b = (b, .okay v) := by
  simp only [transactT, tWe_mkT, tAddr_mkT, tData_mkT, transact_read_address, busRead, regAt_address, hv]

/-! ### A block with a digest in its buffer, and its Fingerprint (R122, R148, R174) -/

/-- The block once a digest is in its buffer, latched or pushed (R122, R175). -/
abbrev Block.withDigest (b : Block) (dg : Vector Byte 16) : Block :=
  { b with dg := dg, dlen := 16#8, fpvalid := false }

/-- The block once FPENC has written its results (R148). -/
abbrev Block.withResults (b : Block) (e : Encoding) : Block :=
  { b with rnib := e.rnib, pk := e.pk, fpc := e.fpc, fpvalid := true }

/-- The word a host reads from `FP0` (R90). -/
abbrev fp0Word (fpc : Vector Byte 5) : Word := wordOfBytes fpc[0] fpc[1] fpc[2] fpc[3]

/-- The word a host reads from `FP1` (R90). -/
abbrev fp1Word (fpc : Vector Byte 5) : Word := fpc[4].setWidth 32

/-- The two words hold the five characters (R174 step 3). -/
theorem charactersOf_fpWords (fpc : Vector Byte 5) : charactersOf (fp0Word fpc) (fp1Word fpc) = fpc := by
  obtain ⟨h0, h1, h2, h3⟩ := wordByte_wordOfBytes fpc[0] fpc[1] fpc[2] fpc[3]
  have h4 : wordByte (fp1Word fpc) 0 = fpc[4] := by
    apply BitVec.eq_of_toNat_eq
    rw [wordByte_toNat, BitVec.toNat_setWidth_of_le (by decide)]
    have := fpc[4].isLt
    omega
  simp only [charactersOf, h0, h1, h2, h3, h4]
  ext k hk : 1
  interval_cases k <;> rfl

theorem dglatch_eq_withDigest (b : Block) :
    dglatch b = (b.withDigest (digestOf b.h), .okay 0#32) := rfl

/-- Byte 3 of the latched digest is the top byte of `H[0]` (R43 (b)). -/
theorem digestOf_three_toNat (h : Vector Word 4) : (digestOf h)[3].toNat = h[0].toNat / 256 ^ 3 := by
  have hbyte : (digestOf h)[3] = wordByte h[0] 3 := digestOf_getElem h 0 3
  have hlt := h[0].isLt
  rw [hbyte, wordByte_toNat]
  omega

theorem exists_encodeDigest_of_lt (tail : PackTail) {dg : Vector Byte 16} (h3 : dg[3].toNat < 0xF0) :
    ∃ e, encodeDigest tail dg = .ok e :=
  ⟨_, encodeDigest_of_iterations tail (iterations_of_lt h3)⟩

section Fpenc

variable {b : Block}

theorem transactT_fpenc_of_ok {e : Encoding} (hf : b.fault = false) (hlen : b.dlen = 16#8)
    (he : encodeDigest Config.packTail b.dg = .ok e) :
    transactT Config.packTail (commandT .fpenc) b = (b.withResults e, .okay 0#32) := by
  rw [transactT_commandT _ .fpenc hf, runCommand, fpenc_of_ok hlen he]

theorem transactT_fpenc_of_error {v : Byte} (hf : b.fault = false) (hlen : b.dlen = 16#8)
    (he : encodeDigest Config.packTail b.dg = .error v) :
    transactT Config.packTail (commandT .fpenc) b = b.raise .indexOutOfRange v := by
  rw [transactT_commandT _ .fpenc hf, runCommand, fpenc_of_error hlen he]

theorem transactT_fpenc_of_length (hf : b.fault = false) (hlen : b.dlen ≠ 16#8) :
    transactT Config.packTail (commandT .fpenc) b = b.raise .invalidDigestLength b.dlen := by
  rw [transactT_commandT _ .fpenc hf, runCommand, fpenc_of_length _ hlen]

end Fpenc

/-- The four transactions of the straight path, responses newest first (R174). -/
theorem transactAll_fingerprintListing {b : Block} {e : Encoding} (hf : b.fault = false)
    (he : encodeDigest Config.packTail (digestOf b.h) = .ok e) :
    transactAll Config.packTail (assemble fingerprintListing) b =
      ((b.withDigest (digestOf b.h)).withResults e,
        [.okay (fp1Word e.fpc), .okay (fp0Word e.fpc), .okay 0#32, .okay 0#32]) := by
  have hlist : assemble fingerprintListing = [commandT .dglatch, commandT .fpenc,
    mkT false (address .fp0) 0#32, mkT false (address .fp1) 0#32] := rfl
  have hfpenc := transactT_fpenc_of_ok (b := b.withDigest (digestOf b.h)) hf rfl he
  have hfp0 := transactT_read_address Config.packTail (r := .fp0)
    (b := (b.withDigest (digestOf b.h)).withResults e) rfl
  have hfp1 := transactT_read_address Config.packTail (r := .fp1)
    (b := (b.withDigest (digestOf b.h)).withResults e) rfl
  simp only [hlist, transactAll, transactT_commandT _ .dglatch hf, runCommand, dglatch_eq_withDigest,
    hfpenc, hfp0, hfp1, List.nil_append, List.cons_append]

/-! ### One transaction performed, and several (R50) -/

/-- With nothing else pending, performing a transaction completes it and hands its response over. -/
theorem perform_of_answer {s : State} {w : TWord} {a : Answer} (hp : s.pending = [])
    (ha : transactT Config.packTail w s.blk = a) : s.perform w = some (s.complete a, a.2) := by
  subst ha
  have hissue : (s.issue [w]).pending = [.transaction w] := by simp [State.issue, hp]
  have hstep := step_transaction hissue
  rw [← hp] at hstep
  exact perform_of_step hp hstep rfl

/-- Performing transactions one after the other is R50's fold, like issuing them all at once. -/
theorem performAll_eq (ws : List TWord) {s : State} (hp : s.pending = []) :
    s.performAll ws = some
      { blk := (transactAll Config.packTail ws s.blk).1, pending := [],
        responses := (transactAll Config.packTail ws s.blk).2 ++ s.responses } := by
  induction ws generalizing s with
  | nil =>
    obtain ⟨b, p, q⟩ := s
    obtain rfl : p = [] := hp
    rfl
  | cons w ws ih =>
    have hrest := ih (s := s.complete (transactT Config.packTail w s.blk)) hp
    rw [performAll_cons, perform_of_answer hp rfl, Option.bind_some, hrest]
    simp [transactAll]

/-! ### The host that looks at FPENC's response (R174, R177) -/

/-- The two reads return the characters the block holds, and leave it. -/
theorem readCharacters_eq {s : State} (hp : s.pending = []) :
    s.readCharacters = some
      ({ s with responses := .okay (fp1Word s.blk.fpc) :: .okay (fp0Word s.blk.fpc) :: s.responses },
        s.blk.fpc) := by
  have hfp0 := perform_of_answer hp (transactT_read_address _ (r := .fp0) (b := s.blk) rfl)
  have hfp1 := perform_of_answer (s := s.complete (s.blk, .okay (fp0Word s.blk.fpc))) hp
    (transactT_read_address _ (r := .fp1) (b := s.blk) rfl)
  have hchars := charactersOf_fpWords s.blk.fpc
  simp only [State.readCharacters, hfp0, Option.bind_eq_bind, Option.bind_some, hfp1, Response.data,
    hchars, Option.pure_def]
  rfl

theorem encodeAndRead_of_ok {s : State} {e : Encoding} (hp : s.pending = []) (hf : s.blk.fault = false)
    (hlen : s.blk.dlen = 16#8) (he : encodeDigest Config.packTail s.blk.dg = .ok e) :
    s.encodeAndRead = some
      ({ blk := s.blk.withResults e, pending := [],
         responses := .okay (fp1Word e.fpc) :: .okay (fp0Word e.fpc) :: .okay 0#32 :: s.responses },
        .ok e.fpc) := by
  have hfpenc := perform_of_answer hp (transactT_fpenc_of_ok hf hlen he)
  have hread := readCharacters_eq (s := s.complete (s.blk.withResults e, .okay 0#32)) hp
  simp only [State.encodeAndRead, hfpenc, Option.bind_eq_bind, Option.bind_some, hread, Option.map_some,
    complete_pending, hp]
  rfl

/-- An error response to FPENC ends the operation with that error. -/
theorem encodeAndRead_of_error {s : State} {b : Block} {c : ErrorCode} (hp : s.pending = [])
    (ha : transactT Config.packTail (commandT .fpenc) s.blk = (b, .error c)) :
    s.encodeAndRead = some
      ({ blk := b, pending := [], responses := .error c :: s.responses }, .error c) := by
  have hfpenc := perform_of_answer hp ha
  simp only [State.encodeAndRead, hfpenc, Option.bind_eq_bind, Option.bind_some, State.complete, hp,
    Option.pure_def]

/-- `encodeFingerprint` on the computed digest goes on from the answer to DGLATCH. -/
theorem encodeLatched_of_answer {s : State} {a : Answer} (hp : s.pending = [])
    (ha : transactT Config.packTail (commandT .dglatch) s.blk = a) :
    s.encodeLatched = (s.complete a).encodeAndRead := by
  rw [State.encodeLatched, performAll_cons, perform_of_answer hp ha]
  rfl

/-- DGLATCH while no fault is latched, then R174 from step 2 on. -/
theorem encodeLatched_of_clear {s : State} (hp : s.pending = []) (hf : s.blk.fault = false) :
    s.encodeLatched =
      (s.complete (s.blk.withDigest (digestOf s.blk.h), .okay 0#32)).encodeAndRead :=
  encodeLatched_of_answer hp (transactT_commandT _ .dglatch hf)

section Latched

variable {s : State}

theorem encodeLatched_of_ok {e : Encoding} (hp : s.pending = []) (hf : s.blk.fault = false)
    (he : encodeDigest Config.packTail (digestOf s.blk.h) = .ok e) :
    s.encodeLatched = some
      ({ blk := (s.blk.withDigest (digestOf s.blk.h)).withResults e, pending := [],
         responses := .okay (fp1Word e.fpc) :: .okay (fp0Word e.fpc) :: .okay 0#32 :: .okay 0#32 ::
           s.responses },
        .ok e.fpc) :=
  (encodeLatched_of_clear hp hf).trans (encodeAndRead_of_ok hp hf rfl he)

theorem encodeLatched_of_error {v : Byte} (hp : s.pending = []) (hf : s.blk.fault = false)
    (he : encodeDigest Config.packTail (digestOf s.blk.h) = .error v) :
    s.encodeLatched = some
      ({ blk := ((s.blk.withDigest (digestOf s.blk.h)).raise .indexOutOfRange v).1, pending := [],
         responses := .error (.fault .indexOutOfRange) :: .okay 0#32 :: s.responses },
        .error (.fault .indexOutOfRange)) :=
  (encodeLatched_of_clear hp hf).trans
    (encodeAndRead_of_error hp (transactT_fpenc_of_error hf rfl he))

/-- With a fault latched both commands are refused (R203). -/
theorem encodeLatched_of_fault (hp : s.pending = []) (hf : s.blk.fault = true) :
    s.encodeLatched = some
      ({ s with responses := .error .faultLocked :: .error .faultLocked :: s.responses },
        .error .faultLocked) := by
  have hfpenc := encodeAndRead_of_error (s := s.complete (s.blk, .error .faultLocked)) hp
    (transactT_commandT_of_fault _ (op := .fpenc) nofun nofun hf)
  rw [← hp] at hfpenc
  exact (encodeLatched_of_answer hp
    (transactT_commandT_of_fault _ (op := .dglatch) nofun nofun hf)).trans hfpenc

end Latched

/-! ### The host that tests `STATUS` (R174, R177; log entry 12) -/

/-- A flag as a word is its bit 0 and no other. -/
theorem flagWord_getElem (f : Bool) {k : Nat} (hk : k < 32) : (flagWord f)[k] = (f && decide (k = 0)) := by
  cases f <;> simp [flagWord, BitVec.getElem_one]

/-- Bits 1 and 0 of `STATUS` are `FPVALID` and `FAULT` (R87). -/
theorem statusShowsResult_status (b : Block) :
    statusShowsResult b.status = (b.fpvalid && !b.fault) := by
  have hvalid : b.status.getLsbD 1 = b.fpvalid := by
    simp [Block.status, flagWord_getElem]
  have hfault : b.status.getLsbD 0 = b.fault := by
    simp [Block.status, flagWord_getElem]
  rw [statusShowsResult, hvalid, hfault]

/-- `STATUS` bits 11:8 are `CAUSE` (R87). -/
theorem status_cause (b : Block) : b.status.extractLsb' 8 4 = b.cause := by
  apply BitVec.eq_of_toNat_eq
  rw [BitVec.extractLsb'_toNat, Nat.shiftRight_eq_div_pow, status_toNat]
  have := b.cause.isLt
  split_ifs <;> omega

/-- After DGLATCH and FPENC have left the block `b`, the host decides by the word it reads from `STATUS`. -/
theorem encodeLatchedByStatus_of_answer {s : State} {a : Answer} (hp : s.pending = [])
    (hf : s.blk.fault = false)
    (ha : transactT Config.packTail (commandT .fpenc) (s.blk.withDigest (digestOf s.blk.h)) = a) :
    ∃ u : State, u.blk = a.1 ∧ s.encodeLatchedByStatus = some (u,
      if a.1.fpvalid && !a.1.fault then .ok a.1.fpc else .error (ErrorCode.ofCode a.1.cause)) := by
  have hblk : (transactAll Config.packTail [commandT .dglatch, commandT .fpenc] s.blk).1 = a.1 := by
    simp only [transactAll, transactT_commandT _ .dglatch hf, runCommand, dglatch_eq_withDigest, ha]
  have hstatus : ∀ t : State, t.pending = [] →
      t.perform (mkT false (address .status) 0#32) =
        some (t.complete (t.blk, .okay t.blk.status), .okay t.blk.status) :=
    fun t ht => perform_of_answer ht (transactT_read_address _ rfl)
  rw [State.encodeLatchedByStatus, performAll_eq _ hp, hblk]
  simp only [Option.bind_eq_bind, Option.bind_some, hstatus, Response.data, statusShowsResult_status,
    status_cause]
  cases a.1.fpvalid && !a.1.fault with
  | true =>
    rw [if_pos rfl, readCharacters_eq rfl]
    exact ⟨_, rfl, rfl⟩
  | false => exact ⟨_, rfl, rfl⟩

/-! ### The host that pushes the digest (R175) -/

/-- DGCLR and the pushes are taken, and R174 goes on from step 2. -/
theorem encodePushed_eq {s : State} (hp : s.pending = []) (hf : s.blk.fault = false)
    (bytes : List Byte) :
    ∃ q : List Response, s.encodePushed bytes =
      State.encodeAndRead { blk := pushAll (dgclr s.blk).1 bytes, pending := [], responses := q } := by
  have hexpand : expand (.pushdg bytes) = assemble [.pushdg bytes] := (List.flatMap_singleton ..).symm
  rw [State.encodePushed, hexpand, performAll_eq _ hp, transactAll_pushdg _ bytes hf]
  exact ⟨_, rfl⟩

/-- Pushes after DGCLR change the buffer only, whose length is the number of bytes, 255 at most. -/
theorem pushAll_dgclr (b : Block) (bytes : List Byte) : ∃ dg n,
    pushAll (dgclr b).1 bytes = { b with dg := dg, dlen := n, fpvalid := false } ∧
      n.toNat = min bytes.length 255 := by
  refine ⟨_, _, pushAll_frame rfl bytes, ?_⟩
  simpa using pushAll_dlen_toNat (dgclr b).1 bytes

/-- Sixteen bytes pushed after DGCLR are the digest in the buffer. -/
theorem pushAll_dgclr_digest (b : Block) (dg : Vector Byte 16) :
    pushAll (dgclr b).1 dg.toList = b.withDigest dg := by
  have hdg : (pushAll (dgclr b).1 dg.toList).dg = dg := Vector.ext fun i hi => by
    simpa [hi] using pushAll_dg_getElem (b := (dgclr b).1) rfl dg.toList ⟨i, hi⟩
  have hlen : (pushAll (dgclr b).1 dg.toList).dlen = 16#8 := BitVec.eq_of_toNat_eq (by
    simpa using pushAll_dlen_toNat (dgclr b).1 dg.toList)
  rw [pushAll_frame rfl dg.toList, hdg, hlen]
  rfl

end Sys2Proof.Machine

namespace Sys2Proof.HostSequenceProofs

open Sys2Proof.Machine Sys2Proof.Safety

/-- Settles O50. -/
theorem paddedMessageShape : Obligations.PaddedMessageShape := fun msg =>
  ⟨pad_length msg, padZeros msg.length, padZeros_lt _, padZeros_congruence _,
    by rw [pad, lengthField_eq]⟩

/-- Settles O52: the run is MDINIT and the loop, by induction on the blocks of the padded message. -/
theorem hostSequenceComputesMd5 : Obligations.HostSequenceComputesMd5 := by
  intro s msg hf hp
  have hlen : (assemble (md5Listing msg)).length = 1 + 17 * ((msg.length + 8) / 64 + 1) := by
    rw [assemble_md5Listing, List.length_cons, flatMap_loadCompress_length, blocksOf_pad_length,
      Nat.add_comm]
  obtain ⟨m, hblk⟩ := transactAll_md5Listing Config.packTail msg hf
  have hrun := runsTo_issue hp (assemble (md5Listing msg))
  rw [hblk] at hrun
  exact ⟨hlen, _, hrun, rfl, rfl⟩

/-- Settles O55: the run is the fold of the four transactions. -/
theorem hostSequenceReadsFingerprint : Obligations.HostSequenceReadsFingerprint := by
  intro s hf hp h3
  rw [← digestOf_three_toNat] at h3
  obtain ⟨e, he⟩ := exists_encodeDigest_of_lt Config.packTail h3
  have hrun := runsTo_issue hp (assemble fingerprintListing)
  rw [transactAll_fingerprintListing hf he] at hrun
  exact ⟨_, fp0Word e.fpc, fp1Word e.fpc, e, hrun, rfl, rfl, he, charactersOf_fpWords e.fpc, rfl⟩

/-- Settles O56: the two characters render the nibbles `2j` and `2j + 1`, which are those of byte `j`. -/
theorem wholeDigestRendering : Obligations.WholeDigestRendering := by
  intro dg j
  have hhigh : flatNibble dg (2 * j.val) = dg[j].toNat / 16 := by
    rw [flatNibble_eq dg (by omega), if_pos (by omega)]
    simp
  have hlow : flatNibble dg (2 * j.val + 1) = dg[j].toNat % 16 := by
    have hbyte : (2 * j.val + 1) / 2 = j.val := by omega
    rw [flatNibble_eq dg (by omega), if_neg (by omega)]
    simp [hbyte]
  exact ⟨(hex32_getElem dg (by omega)).trans (congrArg hexCode hhigh),
    (hex32_getElem dg (by omega)).trans (congrArg hexCode hlow)⟩

/-- Settles O57: the response decides, by the encoding of the latched digest; `STATUS` shows the same two
outcomes. -/
theorem hostFingerprintOrError : Obligations.HostFingerprintOrError := by
  refine fun s hp => ⟨fun hf h3 => ?_, fun hf h3 => ?_, fun hf => ?_, encodeLatched_of_fault hp⟩
  · rw [← digestOf_three_toNat] at h3
    obtain ⟨e, he⟩ := exists_encodeDigest_of_lt Config.packTail h3
    exact ⟨_, e, _, _, encodeLatched_of_ok hp hf he, he, rfl, rfl, rfl⟩
  · rw [← digestOf_three_toNat] at h3
    exact encodeLatched_of_error hp hf (encodeDigest_of_ge _ h3)
  · rcases he : encodeDigest Config.packTail (digestOf s.blk.h) with v | e
    · obtain ⟨u, hblk, hu⟩ := encodeLatchedByStatus_of_answer hp hf (transactT_fpenc_of_error hf rfl he)
      exact ⟨_, u, _, encodeLatched_of_error hp hf he, hu, hblk⟩
    · obtain ⟨u, hblk, hu⟩ := encodeLatchedByStatus_of_answer hp hf (transactT_fpenc_of_ok hf rfl he)
      refine ⟨_, u, _, encodeLatched_of_ok hp hf he, ?_, hblk⟩
      rw [hu]
      simp [hf, Except.mapError]

/-- Settles O58: the pushes leave the digest in the buffer, or a length that FPENC refuses. -/
theorem hostPushedFingerprintOrError : Obligations.HostPushedFingerprintOrError := by
  refine fun s hp hf => ⟨fun dg h3 => ?_, fun dg h3 => ?_, fun bytes hbytes => ?_⟩
  · obtain ⟨q, hpush⟩ := encodePushed_eq hp hf dg.toList
    rw [pushAll_dgclr_digest] at hpush
    obtain ⟨e, he⟩ := exists_encodeDigest_of_lt Config.packTail h3
    exact ⟨_, e, hpush.trans (encodeAndRead_of_ok rfl hf rfl he), rfl, he, rfl⟩
  · obtain ⟨q, hpush⟩ := encodePushed_eq hp hf dg.toList
    rw [pushAll_dgclr_digest] at hpush
    have hfault := transactT_fpenc_of_error (b := s.blk.withDigest dg) hf rfl (encodeDigest_of_ge _ h3)
    exact ⟨_, hpush.trans (encodeAndRead_of_error rfl hfault), rfl, rfl⟩
  · obtain ⟨q, hpush⟩ := encodePushed_eq hp hf bytes
    obtain ⟨dg, n, hblk, hn⟩ := pushAll_dgclr s.blk bytes
    rw [hblk] at hpush
    have hlen : n ≠ 16#8 := by
      rintro rfl
      rw [BitVec.toNat_ofNat] at hn
      omega
    have hfault := transactT_fpenc_of_length
      (b := { s.blk with dg := dg, dlen := n, fpvalid := false }) hf hlen
    exact ⟨_, n, hpush.trans (encodeAndRead_of_error rfl hfault), rfl, hn, rfl⟩

end Sys2Proof.HostSequenceProofs

/-! The exceptions: the illegal command word, the lockout and what does not see `FAULT`, and the two kinds of
error every step keeps apart, a fault and a refusal (spec/60_exceptions.md). -/

namespace Sys2Proof.Machine

open Sys2Proof.Safety

/-! ### A command word that is no command, and one that is locked out (R68, R84, R194, R203) -/

theorem ne_word_of_gt {w : Word} (hw : 7 < w.toNat) (op : Opcode) : w ≠ op.word := by
  rintro rfl
  exact absurd (word_toNat_le op) (Nat.not_le.mpr hw)

theorem writeCmd_of_gt (tail : PackTail) {b : Block} {w : Word} (hf : b.fault = false)
    (hw : 7 < w.toNat) : writeCmd tail b w = b.raise .illegalCommand (commandInfo w) := by
  rcases writeCmd_cases tail b w with
    ⟨h6, -⟩ | ⟨h7, -⟩ | ⟨-, -, ⟨hlocked, -⟩ | ⟨-, -, h⟩ | ⟨-, op, hop, -⟩⟩
  · exact absurd h6 (ne_word_of_gt hw _)
  · exact absurd h7 (ne_word_of_gt hw _)
  · rw [hf] at hlocked; cases hlocked
  · exact h
  · exact absurd hop (ne_word_of_gt hw op)

theorem commandInfo_eq_ofNat (w : Word) : commandInfo w = BitVec.ofNat 8 (w.toNat % 256) := by
  apply BitVec.eq_of_toNat_eq
  simp [commandInfo]

theorem writeCmd_of_fault (tail : PackTail) {b : Block} {w : Word} (hf : b.fault = true)
    (h6 : w.toNat ≠ 6) (h7 : w.toNat ≠ 7) : writeCmd tail b w = (b, .error .faultLocked) := by
  rcases writeCmd_cases tail b w with
    ⟨rfl, -⟩ | ⟨rfl, -⟩ | ⟨-, -, ⟨-, h⟩ | ⟨hclear, -⟩ | ⟨hclear, -⟩⟩
  · exact absurd rfl h6
  · exact absurd rfl h7
  · exact h
  · rw [hf] at hclear; cases hclear
  · rw [hf] at hclear; cases hclear

/-! ### What does not see `FAULT` (R203) -/

/-- The block with `FAULT` set to `f`. -/
abbrev Block.withFault (b : Block) (f : Bool) : Block := { b with fault := f }

/-- An answer with `FAULT` set to `f` in its block. -/
abbrev Answer.withFault (a : Answer) (f : Bool) : Answer := (a.1.withFault f, a.2)

theorem writeDgpush_withFault (b : Block) (d : Word) (f : Bool) :
    writeDgpush (b.withFault f) d = Answer.withFault (writeDgpush b d) f := by
  cases hv : pushByte d with
  | none => rw [writeDgpush_refused hv, writeDgpush_refused hv]; rfl
  | some v => rw [writeDgpush_of_pushByte hv, writeDgpush_of_pushByte hv]; rfl

/-- Only a write to `CMD` looks at `FAULT` or writes it. -/
theorem writeReg_withFault (tail : PackTail) (b : Block) (d : Word) {r : Reg} (hr : r ≠ .cmd) (f : Bool) :
    writeReg tail (b.withFault f) d r = Answer.withFault (writeReg tail b d r) f := by
  cases r with
  | cmd => exact absurd rfl hr
  | dgpush => exact writeDgpush_withFault b d f
  | _ => rfl

theorem busWrite_withFault (tail : PackTail) (b : Block) {addr : Addr} (d : Word)
    (ha : addr ≠ address .cmd) (f : Bool) :
    busWrite tail (b.withFault f) addr d = Answer.withFault (busWrite tail b addr d) f := by
  unfold busWrite
  cases hr : regAt addr with
  | none => rfl
  | some r =>
    refine writeReg_withFault tail b d ?_ f
    rintro rfl
    exact ha (eq_address_of_regAt hr)

/-- Only `STATUS` shows `FAULT`. -/
theorem read_withFault (b : Block) {r : Reg} (hr : r ≠ .status) (f : Bool) :
    (b.withFault f).read r = b.read r := by
  cases r with
  | status => exact absurd rfl hr
  | _ => rfl

theorem busRead_withFault (b : Block) {addr : Addr} (ha : addr ≠ address .status) (f : Bool) :
    (busRead (b.withFault f) addr).2 = (busRead b addr).2 := by
  unfold busRead
  cases hr : regAt addr with
  | none => rfl
  | some r =>
    have hstatus : r ≠ .status := by
      rintro rfl
      exact ha (eq_address_of_regAt hr)
    simp only [read_withFault b hstatus f]
    cases b.read r <;> rfl

/-! ### The errors a transaction can answer (R190, R200) -/

/-- A command that is not locked out completes or takes a fault. -/
theorem runCommand_answer (tail : PackTail) (op : Opcode) (b : Block) :
    (runCommand tail op b).2 = .okay 0#32 ∨
      op = .fpenc ∧ ∃ c v, runCommand tail op b = b.raise c v := by
  cases op with
  | fpenc =>
    rcases fpenc_cases tail b with ⟨-, h⟩ | ⟨-, v, -, h⟩ | ⟨-, e, -, h⟩
    · exact .inr ⟨rfl, _, _, h⟩
    · exact .inr ⟨rfl, _, v, h⟩
    · exact .inl (congrArg Prod.snd h)
  | _ => exact .inl rfl

/-- Every answer is an `OKAY`, a refusal that leaves the block, or a fault taken by a write to `CMD` while none
is latched. -/
theorem Transacts.answer_cases {b : Block} {w : TWord} {a : Answer} (ht : Transacts b w a) :
    (∃ v, a.2 = .okay v) ∨
      (∃ e, (e = .accessError ∨ e = .faultLocked) ∧ a = (b, .error e)) ∨
      (b.fault = false ∧ tWe w = true ∧ tAddr w = 0x00#8 ∧ ∃ c v, a = b.raise c v) := by
  cases ht with
  | read addr d =>
    rcases busRead_cases b addr with h | ⟨r, v, -, -, h⟩ <;> rw [h]
    · exact .inr (.inl ⟨_, .inl rfl, rfl⟩)
    · exact .inl ⟨v, rfl⟩
  | refused addr d e he => exact .inr (.inl ⟨e, he, rfl⟩)
  | writeH j d | writeM j d => exact .inl ⟨_, rfl⟩
  | push v => exact .inl ⟨_, pushDigest_response b v⟩
  | illegal d hf hd => exact .inr (.inr ⟨hf, tWe_mkT _ _ _, tAddr_mkT _ _ _, _, _, rfl⟩)
  | command op hop =>
    rcases runCommand_answer Config.packTail op b with h | ⟨rfl, h⟩
    · exact .inl ⟨_, h⟩
    · have hf : b.fault = false := by simpa using hop
      exact .inr (.inr ⟨hf, tWe_mkT _ _ _, tAddr_commandT _, h⟩)

/-- A fault is precise: the faulting command has no other effect (R200). -/
theorem Transacts.of_fault {b b' : Block} {w : TWord} {c : FaultCause}
    (ht : Transacts b w (b', .error (.fault c))) :
    b.fault = false ∧ tWe w = true ∧ tAddr w = 0x00#8 ∧ ∃ v, b' = (b.raise c v).1 := by
  rcases ht.answer_cases with ⟨v, h⟩ | ⟨e, rfl | rfl, h⟩ | ⟨hf, hwe, haddr, c', v, h⟩ <;> cases h
  exact ⟨hf, hwe, haddr, v, rfl⟩

theorem Transacts.block_of_refused {b b' : Block} {w : TWord} {e : ErrorCode}
    (ht : Transacts b w (b', .error e)) (he : e = .accessError ∨ e = .faultLocked) : b' = b := by
  rcases ht.answer_cases with ⟨v, h⟩ | ⟨e', -, h⟩ | ⟨-, -, -, c, v, h⟩ <;> cases h
  · rfl
  · rcases he with h | h <;> cases h

theorem FaultCause.code_eq_ite (c : FaultCause) :
    c.code = if c = .invalidDigestLength then 1#4 else if c = .indexOutOfRange then 2#4 else 3#4 := by
  cases c <;> rfl

/-- A step that gives a response took a transaction. -/
theorem transacts_of_response {s t : State} {r : Response} (h : step s = .next t)
    (hr : t.responses = r :: s.responses) :
    ∃ w, s.pending.head? = some (.transaction w) ∧ Transacts s.blk w (t.blk, r) := by
  rcases step_transacts h with ⟨-, rfl⟩ | ⟨rest, -, rfl⟩ | ⟨w, rest, a, hp, ha, rfl⟩
  · exact absurd hr.symm (List.cons_ne_self _ _)
  · exact absurd hr.symm (List.cons_ne_self _ _)
  · cases hr
    exact ⟨w, congrArg List.head? hp, ha⟩

end Sys2Proof.Machine

namespace Sys2Proof.ExceptionProofs

open Sys2Proof.Machine Sys2Proof.Safety

/-- Settles O22: a word above 7 is past CLRF, SRESET and the lockout, and no command. -/
theorem illegalWordRaisesFault : Obligations.IllegalWordRaisesFault := by
  intro s w hf hw
  rw [exec_wr_cmd, writeCmd_of_gt _ hf hw, commandInfo_eq_ofNat]
  rfl

/-- Settles O23: the lockout stands before every command but two, and every other register's access commutes
with a change of `FAULT`. -/
theorem lockoutRefusesCommandsOnly : Obligations.LockoutRefusesCommandsOnly := by
  refine ⟨fun s w hf h6 h7 => ?_, fun s addr v f ha => ?_, fun s addr f ha => ?_⟩
  · rw [exec_wr_cmd, writeCmd_of_fault _ hf h6 h7]
    rfl
  · have hcmd : addr ≠ address .cmd := fun h => ha (congrArg BitVec.toNat h)
    refine ⟨_, _, exec_wr addr v s, ?_⟩
    rw [exec_wr, busWrite_withFault _ s.blk v hcmd f]
    rfl
  · have hstatus : addr ≠ address .status := fun h => ha (congrArg BitVec.toNat h)
    refine ⟨_, exec_rd addr s, ?_⟩
    rw [exec_rd, busRead_withFault s.blk hstatus f]

/-- Settles O41, from everything a transaction can answer. -/
theorem faultEntryIsPrecise : Obligations.FaultEntryIsPrecise := by
  intro s t c h hr
  obtain ⟨w, hp, ht⟩ := transacts_of_response h hr
  obtain ⟨hf, hwe, haddr, v, hblk⟩ := ht.of_fault
  refine ⟨hf, ⟨w, hp, hwe, haddr⟩, v, ?_⟩
  rw [hblk, Block.raise, FaultCause.code_eq_ite]

/-- Settles O42, from everything a transaction can answer. -/
theorem refusalChangesNothing : Obligations.RefusalChangesNothing := by
  intro s t h hr
  obtain ⟨e, he, hr⟩ : ∃ e, (e = .accessError ∨ e = .faultLocked) ∧
      t.responses = .error e :: s.responses := by
    rcases hr with hr | hr
    · exact ⟨_, .inl rfl, hr⟩
    · exact ⟨_, .inr rfl, hr⟩
  obtain ⟨w, -, ht⟩ := transacts_of_response h hr
  exact ht.block_of_refused he

end Sys2Proof.ExceptionProofs

/-! The power states and the reset input (spec/60_exceptions.md section 6, spec/70_reset_and_hazards.md
section 1). -/

namespace Sys2Proof.PowerAndResetProofs

open Sys2Proof.Machine

/-- Settles O8: one rule of the step for each of the two inputs that are no transaction. -/
theorem idleAndHardwareReset : Obligations.IdleAndHardwareReset :=
  ⟨fun _ => step_idle, fun _ _ => step_hardwareReset⟩

end Sys2Proof.PowerAndResetProofs
